-- ==== Sys2Proof/Word.lean ====
section
/-!
DEFINITION. The widths of 00_scope.md R8: a wire field is one byte, a register value 8 or 16 bits, the
sync-read timestamp 32 bits. Every value is unsigned (R9).
-/

namespace Sys2Proof

/-- One byte, 0 to 255: every wire field (R8). -/
abbrev Byte := BitVec 8

/-- A 16-bit register value or position (R8, R52). -/
abbrev Half := BitVec 16

/-- The sync-read timestamp (R8, R53). -/
abbrev Stamp := BitVec 32

end Sys2Proof
end

