-- ==== Sys2Proof/Config.lean ====
section
/-!
DEFINITION. The implementation parameters of 00_scope.md R7. They are fixed when the block is instantiated
(10_state.md R33): a parameter of the step, which State carries because the type of `step` is fixed (log 1).
-/

namespace Sys2Proof

/-- SHORT_LENGTH_POLICY: what the parser does with a length byte below 2 (R7, R110, R113). -/
inductive ShortLengthPolicy where
  | abort
  | zeroParams
deriving DecidableEq, Repr

/-- The parameters of R7, in the table's order. Counts and sizes are natural numbers; opcodes, addresses and
IDs are bytes. -/
structure Config where
  /-- BIT_RATE: used only by the line coder outside DXPC; no rule reads it. -/
  bitRate : Nat
  /-- T_BYTE: the per-byte timeout; no rule reads its value (R147). -/
  tByte : Nat
  /-- MAX_PARAMS: largest parameter count of a frame DXPC encodes. -/
  maxParams : Nat
  /-- PARAM_BUF_DEPTH: capacity of the parse parameter buffer. -/
  paramBufDepth : Nat
  /-- RX_FIFO_DEPTH: capacity of the RX FIFO in bytes. -/
  rxFifoDepth : Nat
  /-- SHORT_LENGTH_POLICY. -/
  shortLength : ShortLengthPolicy
  /-- SYNC_READ_POS_OFFSET: byte offset of a position's low byte within a sync-read group. -/
  syncReadPosOffset : Byte
  /-- OP_PING. -/
  opPing : Byte
  /-- OP_READ. -/
  opRead : Byte
  /-- OP_WRITE. -/
  opWrite : Byte
  /-- OP_SYNC_WRITE. -/
  opSyncWrite : Byte
  /-- OP_SYNC_READ. -/
  opSyncRead : Byte
  /-- REG_TORQUE_ENABLE. -/
  regTorqueEnable : Byte
  /-- REG_GOAL_POSITION. -/
  regGoalPosition : Byte
  /-- REG_PRESENT_POSITION. -/
  regPresentPosition : Byte
  /-- ID_BROADCAST. -/
  idBroadcast : Byte
  /-- ID_CONTROLLER. -/
  idController : Byte
  /-- NO_ERROR: the command-field value of a response that reports no device fault. -/
  noError : Byte
deriving DecidableEq, Repr

/-- The constraints a configuration must meet (the last paragraph of R7; 92_eei_decisions.md D44). A
configuration that breaks one is refused (60_exceptions.md R216). -/
def Config.valid (c : Config) : Bool :=
  decide (c.idBroadcast ≠ c.idController) && decide (c.idBroadcast ≠ 0xFF) &&
    decide (c.idController ≠ 0xFF) && decide (c.maxParams ≤ 253) && decide (253 ≤ c.paramBufDepth) &&
    decide (1 ≤ c.rxFifoDepth)

/-- No two of the five request opcodes are the same byte. R7 does not ask for it; reading a wire frame back
needs it (log 21). -/
def Config.distinctOpcodes (c : Config) : Bool :=
  decide [c.opPing, c.opRead, c.opWrite, c.opSyncWrite, c.opSyncRead].Nodup

/-- The configuration State.reset carries: R7's values, and for each OPEN parameter a value of this model's.
DESIGN CHOICE (log 2): bitRate, tByte, rxFifoDepth, opSyncRead and idController, four of them the test
configuration's of 95_test_vectors.md or the source's default. PRESUMED (log 3): the values R7 marks as general
knowledge. No statement rests on one of them. -/
def Config.default : Config where
  bitRate := 1
  tByte := 1
  maxParams := 253
  paramBufDepth := 253
  rxFifoDepth := 64
  shortLength := .abort
  syncReadPosOffset := 0
  opPing := 0x01
  opRead := 0x02
  opWrite := 0x03
  opSyncWrite := 0x83
  opSyncRead := 0x84
  regTorqueEnable := 0x18
  regGoalPosition := 0x1E
  regPresentPosition := 0x24
  idBroadcast := 0xFE
  idController := 0xFD
  noError := 0x00

end Sys2Proof
end

