-- ==== Sys2Proof/Syntax.lean ====
section
/-!
DEFINITION. The instructions: one constructor for each row of spec/opcode_table.json, sixteen host commands by
`op` (30_encoding.md R84) and five wire request frames (R75 to R79). Beside them the two encodings they have:
the host command record (R83) and the wire frame, a byte sequence (R70).
-/

namespace Sys2Proof

/-- One entry of SYNC_WRITE: a device ID and its 16-bit values (R83). -/
structure Entry where
  eid : Byte
  vals : List Half
deriving DecidableEq, Repr

/-- The host command record of R83. A field a command does not use is ignored. Every field not written is 0 or
empty, as R90's assembler leaves it. -/
structure HostCmd where
  op : BitVec 4
  id : Byte := 0
  cmd : Byte := 0
  addr : Byte := 0
  count : Byte := 0
  width : Byte := 0
  data : List Byte := []
  value : Half := 0
  ids : List Byte := []
  entries : List Entry := []
deriving DecidableEq, Repr

/-- What stands for an instruction outside the machine: a host record on the command port, or a frame on the
line. -/
inductive Encoded where
  | command (c : HostCmd)
  | frame (bytes : List Byte)
deriving DecidableEq, Repr

/-- The instructions, with the operands their rules name. -/
inductive Instr where
  /-- SEND, op 0x1 (40_codec.md R104). -/
  | send (id cmd : Byte) (data : List Byte)
  /-- RECV, op 0x2 (40_codec.md R119). -/
  | recv
  /-- PING, op 0x3 (42_session.md R165). -/
  | ping (id : Byte)
  /-- READ_REG, op 0x4 (42_session.md R166). -/
  | readReg (id addr count : Byte)
  /-- WRITE_REG, op 0x5 (42_session.md R168). -/
  | writeReg (id addr : Byte) (data : List Byte)
  /-- SYNC_WRITE, op 0x6 (42_session.md R170). -/
  | syncWrite (addr width : Byte) (entries : List Entry)
  /-- SYNC_READ, op 0x7 (42_session.md R172). -/
  | syncRead (ids : List Byte) (width : Byte)
  /-- TORQUE_ON, op 0x8 (42_session.md R176). -/
  | torqueOn (id : Byte)
  /-- TORQUE_OFF, op 0x9 (42_session.md R177). -/
  | torqueOff (id : Byte)
  /-- SET_POSITION, op 0xA (42_session.md R178). -/
  | setPosition (id : Byte) (value : Half)
  /-- READ_POSITION, op 0xB (42_session.md R179). -/
  | readPosition (id : Byte)
  /-- FLUSH_TX, op 0xC (41_transport.md R150). -/
  | flushTx
  /-- Reserved op 0x0 (60_exceptions.md R205). -/
  | reserved0
  /-- Reserved op 0xD (60_exceptions.md R205). -/
  | reservedD
  /-- Reserved op 0xE (60_exceptions.md R205). -/
  | reservedE
  /-- Reserved op 0xF (60_exceptions.md R205). -/
  | reservedF
  /-- The PING request frame (30_encoding.md R75). -/
  | wirePing (id : Byte)
  /-- The READ_REG request frame (R76). -/
  | wireRead (id addr count : Byte)
  /-- The WRITE_REG request frame (R77). -/
  | wireWrite (id addr : Byte) (data : List Byte)
  /-- The SYNC_WRITE request frame (R78), always to ID_BROADCAST. -/
  | wireSyncWrite (addr width : Byte) (entries : List Entry)
  /-- The SYNC_READ request frame (R79), always to ID_CONTROLLER. -/
  | wireSyncRead (ids : List Byte)
deriving DecidableEq, Repr

end Sys2Proof
end

