-- ==== Sys2Proof/Machine/Wire.lean ====
section
/-!
DEFINITION. The byte arithmetic of the wire: byte order (20_memory.md R52, R53), the checksum (40_codec.md R100
to R102), the frame encoder (R103), and the parameters of each request (30_encoding.md R76 to R79).
-/

namespace Sys2Proof.Machine

/-- The low byte of a 16-bit value, `v[7:0]` (R52). -/
def lo8 (v : Half) : Byte := v.extractLsb' 0 8

/-- The high byte of a 16-bit value, `v[15:8]` (R52). -/
def hi8 (v : Half) : Byte := v.extractLsb' 8 8

/-- `b0 + 256·b1`: two bytes, low byte first (R52). -/
def le16 (b0 b1 : Byte) : Half := BitVec.ofNat 16 (b0.toNat + 256 * b1.toNat)

/-- `b0 + 2^8·b1 + 2^16·b2 + 2^24·b3`: four bytes, low byte first (R53). -/
def le32 (b0 b1 b2 b3 : Byte) : Stamp :=
  BitVec.ofNat 32 (b0.toNat + 2 ^ 8 * b1.toNat + 2 ^ 16 * b2.toNat + 2 ^ 24 * b3.toNat)

/-- The sum of a byte sequence modulo 256 (R100). -/
def sum8 (bs : List Byte) : Byte := BitVec.ofNat 8 (bs.map BitVec.toNat).sum

/-- The checksum byte of a frame: ID, length, command and parameters, never the header (R101, R72). -/
def chk8 (id len cmd : Byte) (params : List Byte) : Byte := 0xFF - sum8 ([id, len, cmd] ++ params)

/-- The length byte of a frame with n parameters (R71). -/
def lengthByte (n : Nat) : Byte := BitVec.ofNat 8 (2 + n)

/-- The whole frame, header through checksum, every byte copied unchanged (R70, R103). -/
def encodeFrame (id cmd : Byte) (params : List Byte) : List Byte :=
  [0xFF, 0xFF, id, lengthByte params.length, cmd] ++ params ++
    [chk8 id (lengthByte params.length) cmd params]

/-- READ_REG's parameters `[start, count]` (R76). -/
def readParams (addr count : Byte) : List Byte := [addr, count]

/-- WRITE_REG's parameters `[start] ++ values` (R77). -/
def writeParams (addr : Byte) (data : List Byte) : List Byte := addr :: data

/-- A 16-bit value on the wire, low byte first (R52). -/
def halfBytes (v : Half) : List Byte := [lo8 v, hi8 v]

/-- One SYNC_WRITE entry on the wire: its ID, then its values (R78). -/
def entryBytes (e : Entry) : List Byte := e.eid :: e.vals.flatMap halfBytes

/-- SYNC_WRITE's parameters `[start, width] ++ E_0 ++ … ++ E_{m-1}` (R78). -/
def syncWriteParams (addr width : Byte) (entries : List Entry) : List Byte :=
  [addr, width] ++ entries.flatMap entryBytes

/-- The PING request frame (R75). -/
def pingFrame (c : Config) (id : Byte) : List Byte := encodeFrame id c.opPing []

/-- The READ_REG request frame (R76). -/
def readFrame (c : Config) (id addr count : Byte) : List Byte :=
  encodeFrame id c.opRead (readParams addr count)

/-- The WRITE_REG request frame (R77). -/
def writeFrame (c : Config) (id addr : Byte) (data : List Byte) : List Byte :=
  encodeFrame id c.opWrite (writeParams addr data)

/-- The SYNC_WRITE request frame (R78). -/
def syncWriteFrame (c : Config) (addr width : Byte) (entries : List Entry) : List Byte :=
  encodeFrame c.idBroadcast c.opSyncWrite (syncWriteParams addr width entries)

/-- The SYNC_READ request frame (R79). -/
def syncReadFrame (c : Config) (ids : List Byte) : List Byte :=
  encodeFrame c.idController c.opSyncRead ids

end Sys2Proof.Machine
end

