-- ==== Sys2Proof/WellFormed.lean ====
section
/-!
DEFINITION. Which instructions exist: the operand bounds of the host record (30_encoding.md R83) and of the wire
frames DXPC encodes (R71, R78; 42_session.md R170, R172).
-/

namespace Sys2Proof

/-- A byte sequence of the host record: 0 to 253 bytes (R83). -/
def sequenceFits (bs : List Byte) : Bool := decide (bs.length ≤ 253)

/-- A record R83's types admit: `data` and `ids` of at most 253 bytes, whatever the op. -/
def HostCmd.wellFormed (c : HostCmd) : Bool := sequenceFits c.data && sequenceFits c.ids

/-- The parameters of a frame DXPC encodes: at most MAX_PARAMS of them (R71). -/
def paramsFit (c : Config) (ps : List Byte) : Bool := decide (ps.length ≤ c.maxParams)

/-- Every entry carries `width` bytes of values (R170). -/
def widthsMatch (width : Byte) (entries : List Entry) : Bool :=
  entries.all fun e => decide (2 * e.vals.length = width.toNat)

/-- An instruction the spec admits. A wire frame needs the five opcodes to be told apart (log 21); a sync frame
names devices 0 to 253 only (R170, R172). -/
def Instr.wellFormed (c : Config) : Instr → Bool
  | .send _ _ data => sequenceFits data
  | .recv => true
  | .ping _ => true
  | .readReg _ _ _ => true
  | .writeReg _ _ data => sequenceFits data
  | .syncWrite _ _ _ => true
  | .syncRead ids _ => sequenceFits ids
  | .torqueOn _ => true
  | .torqueOff _ => true
  | .setPosition _ _ => true
  | .readPosition _ => true
  | .flushTx => true
  | .reserved0 => true
  | .reservedD => true
  | .reservedE => true
  | .reservedF => true
  | .wirePing _ => c.valid && c.distinctOpcodes
  | .wireRead _ addr count =>
      c.valid && c.distinctOpcodes && paramsFit c (Machine.readParams addr count)
  | .wireWrite _ addr data =>
      c.valid && c.distinctOpcodes && paramsFit c (Machine.writeParams addr data)
  | .wireSyncWrite addr width entries =>
      c.valid && c.distinctOpcodes && paramsFit c (Machine.syncWriteParams addr width entries) &&
        widthsMatch width entries && entries.all fun e => decide (e.eid.toNat ≤ 253)
  | .wireSyncRead ids =>
      c.valid && c.distinctOpcodes && paramsFit c ids && ids.all fun i => decide (i.toNat ≤ 253)

end Sys2Proof
end

