-- ==== Sys2Proof/Decode.lean ====
section
/-!
DEFINITION. Decoding, and after it the encoder. A host record decodes by its `op` (30_encoding.md R84); a frame
decodes by its header, length, checksum and command byte (R70, R74, R75 to R79). Both are total, and what they do
not read they reject by name.
-/

namespace Sys2Proof

/-- Why a record or a frame is no instruction. -/
inductive DecodeError where
  /-- `data` or `ids` above 253 bytes: no record of R83. -/
  | recordTooLong
  /-- The frame ends before its checksum (R74). -/
  | shortFrame
  /-- A header byte is not 0xFF (R70). -/
  | badHeader
  /-- A length byte below 2 (R71). -/
  | badLength
  /-- The checksum is not chk8 of the other fields (R72, R102). -/
  | badChecksum
  /-- The command byte is none of the five request opcodes (R92). -/
  | unknownOpcode
  /-- A SYNC_WRITE frame not to ID_BROADCAST, or a SYNC_READ frame not to ID_CONTROLLER (R78, R79). -/
  | wrongTarget
  /-- The parameters are not those of the opcode's request (R75 to R79). -/
  | badParams
  /-- Bytes stand after the frame. -/
  | trailingBytes
deriving DecidableEq, Repr

/-- The instruction `op` selects, with the operand fields it uses (R84). All sixteen values are taken. -/
def instrOfOp (c : HostCmd) : Instr :=
  if c.op = 0x1 then .send c.id c.cmd c.data
  else if c.op = 0x2 then .recv
  else if c.op = 0x3 then .ping c.id
  else if c.op = 0x4 then .readReg c.id c.addr c.count
  else if c.op = 0x5 then .writeReg c.id c.addr c.data
  else if c.op = 0x6 then .syncWrite c.addr c.width c.entries
  else if c.op = 0x7 then .syncRead c.ids c.width
  else if c.op = 0x8 then .torqueOn c.id
  else if c.op = 0x9 then .torqueOff c.id
  else if c.op = 0xA then .setPosition c.id c.value
  else if c.op = 0xB then .readPosition c.id
  else if c.op = 0xC then .flushTx
  else if c.op = 0xD then .reservedD
  else if c.op = 0xE then .reservedE
  else if c.op = 0xF then .reservedF
  else .reserved0

/-- A host record read as an instruction; a record no port can carry is rejected (R83, log 17). -/
def decodeCommand (c : HostCmd) : Except DecodeError Instr :=
  if c.wellFormed then .ok (instrOfOp c) else .error .recordTooLong

/-- Bytes read two at a time, low byte first, as 16-bit values (R52); none of an odd count. -/
def halvesOf : List Byte → Option (List Half)
  | [] => some []
  | [_] => none
  | b0 :: b1 :: rest => (halvesOf rest).map (Machine.le16 b0 b1 :: ·)

/-- SYNC_WRITE entries of `w` value bytes each (R78). `fuel` bounds the entries; one a byte is enough. -/
def entriesOf (w : Nat) : Nat → List Byte → Option (List Entry)
  | _, [] => some []
  | 0, _ :: _ => none
  | fuel + 1, eid :: rest =>
    if rest.length < w then none
    else
      match halvesOf (rest.take w), entriesOf w fuel (rest.drop w) with
      | some vals, some es => some ({ eid := eid, vals := vals } :: es)
      | _, _ => none

/-- A SYNC_WRITE frame's instruction from its parameters (R78). -/
def decodeSyncWrite : List Byte → Except DecodeError Instr
  | addr :: width :: rest =>
    match entriesOf width.toNat rest.length rest with
    | some es => .ok (.wireSyncWrite addr width es)
    | none => .error .badParams
  | _ => .error .badParams

/-- A PING frame's instruction: no parameters (R75). -/
def decodePing (id : Byte) : List Byte → Except DecodeError Instr
  | [] => .ok (.wirePing id)
  | _ :: _ => .error .badParams

/-- A READ_REG frame's instruction: exactly two parameters (R76). -/
def decodeRead (id : Byte) : List Byte → Except DecodeError Instr
  | [addr, count] => .ok (.wireRead id addr count)
  | _ => .error .badParams

/-- A WRITE_REG frame's instruction: an address, then the values (R77). -/
def decodeWrite (id : Byte) : List Byte → Except DecodeError Instr
  | addr :: data => .ok (.wireWrite id addr data)
  | [] => .error .badParams

/-- The request frame a command byte and its parameters are (R75 to R79, R92). -/
def decodeRequest (c : Config) (id cmd : Byte) (params : List Byte) : Except DecodeError Instr :=
  if cmd = c.opPing then decodePing id params
  else if cmd = c.opRead then decodeRead id params
  else if cmd = c.opWrite then decodeWrite id params
  else if cmd = c.opSyncWrite then
    if id = c.idBroadcast then decodeSyncWrite params else .error .wrongTarget
  else if cmd = c.opSyncRead then
    if id = c.idController then .ok (.wireSyncRead params) else .error .wrongTarget
  else .error .unknownOpcode

/-- The body of a frame, after its header: ID, length, command, parameters, checksum (R70, R74). -/
def decodeBody (c : Config) (id len cmd : Byte) (rest : List Byte) :
    Except DecodeError (Instr × List Byte) :=
  if len.toNat < 2 then .error .badLength
  else
    match rest.drop (len.toNat - 2) with
    | [] => .error .shortFrame
    | chk :: after =>
      if chk = Machine.chk8 id len cmd (rest.take (len.toNat - 2)) then
        match decodeRequest c id cmd (rest.take (len.toNat - 2)) with
        | .ok i => .ok (i, after)
        | .error e => .error e
      else .error .badChecksum

/-- A request frame read from the front of a byte sequence, with the bytes after it (R70, R74). -/
def decodeFrame (c : Config) : List Byte → Except DecodeError (Instr × List Byte)
  | h1 :: h2 :: id :: len :: cmd :: rest =>
    if h1 = 0xFF ∧ h2 = 0xFF then decodeBody c id len cmd rest else .error .badHeader
  | _ => .error .shortFrame

/-- What an encoded instruction is. -/
def decode (c : Config) : Encoded → Except DecodeError Instr
  | .command r => decodeCommand r
  | .frame bs =>
    match decodeFrame c bs with
    | .ok (i, []) => .ok i
    | .ok (_, _ :: _) => .error .trailingBytes
    | .error e => .error e

/-! ## The encoder -/

/-- The record or frame of an instruction: R84's `op` and R83's fields, every other field 0 (R90); R75 to R79 for
a wire frame. -/
def encode (c : Config) : Instr → Encoded
  | .send id cmd data => .command { op := 0x1, id := id, cmd := cmd, data := data }
  | .recv => .command { op := 0x2 }
  | .ping id => .command { op := 0x3, id := id }
  | .readReg id addr count => .command { op := 0x4, id := id, addr := addr, count := count }
  | .writeReg id addr data => .command { op := 0x5, id := id, addr := addr, data := data }
  | .syncWrite addr width entries =>
      .command { op := 0x6, addr := addr, width := width, entries := entries }
  | .syncRead ids width => .command { op := 0x7, ids := ids, width := width }
  | .torqueOn id => .command { op := 0x8, id := id }
  | .torqueOff id => .command { op := 0x9, id := id }
  | .setPosition id value => .command { op := 0xA, id := id, value := value }
  | .readPosition id => .command { op := 0xB, id := id }
  | .flushTx => .command { op := 0xC }
  | .reserved0 => .command { op := 0x0 }
  | .reservedD => .command { op := 0xD }
  | .reservedE => .command { op := 0xE }
  | .reservedF => .command { op := 0xF }
  | .wirePing id => .frame (Machine.pingFrame c id)
  | .wireRead id addr count => .frame (Machine.readFrame c id addr count)
  | .wireWrite id addr data => .frame (Machine.writeFrame c id addr data)
  | .wireSyncWrite addr width entries => .frame (Machine.syncWriteFrame c addr width entries)
  | .wireSyncRead ids => .frame (Machine.syncReadFrame c ids)

/-! ## The words of the opcode table -/

/-- What a word of the opcode table stands for (log 15). The command byte of WIRE_SYNC_WRITE or WIRE_SYNC_READ,
which the table matches in all eight bits, is that frame with operands 0 and lists empty, under State.reset's
configuration. Any other byte is a host record: the table matches `op` in bits 3..0 alone, and every other field
of the record is 0. -/
def tableEncoded (w : Nat) : Option Encoded :=
  if w = Config.default.opSyncWrite.toNat then
    some (.frame (Machine.syncWriteFrame Config.default 0 0 []))
  else if w = Config.default.opSyncRead.toNat then
    some (.frame (Machine.syncReadFrame Config.default []))
  else if w < 256 then some (.command { op := BitVec.ofNat 4 w })
  else none

/-- The instruction the decoder reads from a word of the opcode table. Every row has one byte; a longer word with
a bit set above it is no row's. -/
def decodeTableWord (_nbits w : Nat) : Option Instr :=
  match tableEncoded w with
  | none => none
  | some e =>
    match decode Config.default e with
    | .ok i => some i
    | .error _ => none

end Sys2Proof
end

