-- ==== Sys2Proof/Machine/State.lean ====
section
/-!
DEFINITION. The state of one DXPC instance: the elements of 10_state.md R20, the configuration (00_scope.md R7),
and the model's own record of the environment. Plain data throughout.
-/

namespace Sys2Proof.Machine

/-- The command sequencer's position, in place of a program counter (R21). -/
inductive Phase where
  | idle
  | check
  | tx
  | rx
  | interp
  | result
deriving DecidableEq, Repr

/-- The parser state (R24). -/
inductive PState where
  | idle
  | ah1
  | ah2
  | rid
  | rlen
  | rcmd
  | rpar
  | rchk
  | done
  | fail
deriving DecidableEq, Repr

/-- The status codes of 30_encoding.md R87. `ok` is code 0: success in a result, NONE in `f_kind`. -/
inductive Status where
  | ok
  | timeout
  | framing
  | checksum
  | emptyResponse
  | malformedLength
  | device
  | malformedRequest
  | length
  | illegalCommand
deriving DecidableEq, Repr

/-- The MALFORMED_REQUEST reasons of 60_exceptions.md R204, in the order of their codes. -/
inductive Reason where
  /-- 1: the target ID fails `valid_target`. -/
  | badTarget
  /-- 2: the target is ID_BROADCAST for a command that needs a response. -/
  | broadcastReply
  /-- 3: the request's parameter count exceeds MAX_PARAMS. -/
  | tooManyParams
  /-- 4: a sync-write entry's value count does not match the width. -/
  | widthMismatch
  /-- 5: the sync-read group width is too small. -/
  | groupTooNarrow
  /-- 6: a per-device ID in a sync list is above 253. -/
  | badListId
deriving DecidableEq, Repr

/-- The info record of R89. A field a failure does not name is 0. -/
structure Info where
  state : BitVec 4 := 0
  byte : Byte := 0
  expected : Byte := 0
  received : Byte := 0
  code : Byte := 0
  count : Byte := 0
deriving DecidableEq, Repr

/-- The payload of a result; its constructor is the payload kind of R88. -/
inductive Payload where
  | none
  | packet (pid plen pcmd : Byte) (params : List Byte)
  | byte (v8 : Byte)
  | word (v16 : Half)
  | raw (raw : List Byte)
  | sync (ts : Stamp) (pos : List Half)
deriving DecidableEq, Repr

/-- The result record of R86. Its `kind` field is the payload's constructor (Payload.kindCode). -/
structure Result where
  status : Status := .ok
  overrun : Bool := false
  payload : Payload := .none
  info : Info := {}
deriving DecidableEq, Repr

/-- The events at which DXPC changes state (00_scope.md R11), and the host's offering of a record. -/
inductive Event where
  /-- The host puts a record on the command port, which holds it (70_reset_and_hazards.md R245). -/
  | offer (c : HostCmd)
  /-- Command-port event: the offered record is accepted (42_session.md R160). -/
  | accept
  /-- Result-port event: the host takes the result (R161). -/
  | take
  /-- TX-port event: the line coder takes a byte (41_transport.md R141). -/
  | send
  /-- RX-port event: a byte arrives (R142). -/
  | arrive (b : Byte)
  /-- The per-byte timeout fires (R146). -/
  | timeout
  /-- DXPC's own next step: the sequencer's, or the parser's in phase RX (R160). -/
  | seq
  /-- Reset is asserted (70_reset_and_hazards.md R230). -/
  | assertReset
  /-- Reset is released (R231). -/
  | releaseReset
deriving DecidableEq, Repr

/-- The environment: the MODEL's own, no state of DXPC (10_state.md R38). -/
structure Env where
  /-- Which events happen next, in order (log 7). -/
  schedule : List Event := []
  /-- The records the host holds on the command port, oldest first (R245, log 9). -/
  offered : List HostCmd := []
  /-- The reset input is asserted (R231, log 11). -/
  resetHeld : Bool := false
  /-- The bytes the line coder has taken, oldest first: `tx_data` of R141 (log 10). -/
  sent : List Byte := []
  /-- The results the host has taken, oldest first (R161, log 10). -/
  taken : List Result := []
deriving DecidableEq, Repr

/-- The state: R20's elements under their own names, with the configuration and the environment beside them. -/
structure State where
  /-- The parameters of R7: no event changes them (R33). -/
  cfg : Config
  /-- `phase` (R21). -/
  phase : Phase
  /-- `cur`: the accepted host command (R23). -/
  cur : HostCmd
  /-- `ps` (R24). -/
  ps : PState
  /-- `p_id` (R25). -/
  pId : Byte
  /-- `p_len` (R26). -/
  pLen : Byte
  /-- `p_cmd` (R27). -/
  pCmd : Byte
  /-- `p_chk` (R30). -/
  pChk : Byte
  /-- `p_sum` (R29). -/
  pSum : Byte
  /-- `p_n` (R28). -/
  pN : Nat
  /-- `p_buf`: PARAM_BUF_DEPTH bytes, indexed from 0 (R28). -/
  pBuf : List Byte
  /-- `f_kind`, with `ok` read as NONE (R31). -/
  fKind : Status
  /-- `f_info` (R31). -/
  fInfo : Info
  /-- `res_valid` (R32). -/
  resValid : Bool
  /-- `res` (R32). -/
  res : Result
  /-- `txq`, oldest byte first (R34). -/
  txq : List Byte
  /-- `rxq`, oldest byte first (R35). -/
  rxq : List Byte
  /-- `rx_overrun` (R36). -/
  rxOverrun : Bool
  /-- `t_armed` (R37). -/
  tArmed : Bool
  /-- The environment, the model's own. -/
  env : Env
deriving DecidableEq, Repr

/-- Model faults (60_exceptions.md R216). Each stops where the hardware has no behaviour, so each is safe. -/
inductive Fault where
  /-- An access of `p_buf` outside what it holds: a read at or above `p_n` or the depth (R28, R216(b)), or a write at
  or above the depth (log 18). Raised by the parser's RPAR step and by every interpretation that reads `p_buf`. Safe: no rule does it,
  and the model's invariant rules it out. -/
  | paramBuffer
  /-- The running command, the phase and the parser's state are one of the combinations log 18 lists.
  Raised by the sequencer's steps. Safe: the model's invariant rules it out. -/
  | sequence
deriving DecidableEq, Repr

/-- Model refusals: no meaning. -/
inductive Refusal where
  /-- An instruction without a meaning, by its mnemonic. No arm raises it now. Safe. -/
  | notModelled (mnemonic : String)
  /-- The configuration breaks a constraint of R7 (R216(a)). Raised by every step. Safe. -/
  | badConfig
  /-- A record with more than 253 bytes in `data` or `ids`, which R83's types do not admit (log 17). Raised on
  acceptance and by a sequencer step over such a `cur`. Safe. -/
  | illFormedRecord
deriving DecidableEq, Repr

/-- Every element at its reset value (10_state.md R40) under a configuration and an environment. DESIGN CHOICE:
`cur` (log 4), `res` (log 5) and the bytes of `p_buf` (log 6), which R40 leaves unspecified. -/
def State.atReset (c : Config) (e : Env) : State where
  cfg := c
  phase := .idle
  cur := { op := 0 }
  ps := .idle
  pId := 0
  pLen := 0
  pCmd := 0
  pChk := 0
  pSum := 0
  pN := 0
  pBuf := List.replicate c.paramBufDepth 0
  fKind := .ok
  fInfo := {}
  resValid := false
  res := {}
  txq := []
  rxq := []
  rxOverrun := false
  tArmed := false
  env := e

/-- The machine right after reset is released, with nothing scheduled and nothing offered (R230, R231). -/
def State.reset : State := State.atReset Config.default {}

end Sys2Proof.Machine
end

