-- ==== Sys2Proof/Machine/Codes.lean ====
section
/-!
DEFINITION. The binary codes the spec gives its enumerations: 10_state.md R21 and R24, 30_encoding.md R87 and R88,
60_exceptions.md R204.
-/

namespace Sys2Proof.Machine

/-- The 3-bit encoding of `phase` (R21). Encodings 6 and 7 belong to no phase. -/
def phaseCode : Phase → BitVec 3
  | .idle => 0
  | .check => 1
  | .tx => 2
  | .rx => 3
  | .interp => 4
  | .result => 5

/-- The 4-bit encoding of `ps` (R24). Encodings 10 to 15 belong to no state. -/
def psCode : PState → BitVec 4
  | .idle => 0
  | .ah1 => 1
  | .ah2 => 2
  | .rid => 3
  | .rlen => 4
  | .rcmd => 5
  | .rpar => 6
  | .rchk => 7
  | .done => 8
  | .fail => 9

/-- The 4-bit status code (R87), which `f_kind` uses too (R31). Codes 10 to 15 are never produced. -/
def statusCode : Status → BitVec 4
  | .ok => 0
  | .timeout => 1
  | .framing => 2
  | .checksum => 3
  | .emptyResponse => 4
  | .malformedLength => 5
  | .device => 6
  | .malformedRequest => 7
  | .length => 8
  | .illegalCommand => 9

/-- The 3-bit payload kind (R88): the result record's `kind` field. Kinds 6 and 7 are never produced. -/
def kindCode : Payload → BitVec 3
  | .none => 0
  | .packet _ _ _ _ => 1
  | .byte _ => 2
  | .word _ => 3
  | .raw _ => 4
  | .sync _ _ => 5

/-- The MALFORMED_REQUEST reason as `info.code` reports it (R204). Reasons 0 and 7 to 255 are never produced. -/
def reasonCode : Reason → Byte
  | .badTarget => 1
  | .broadcastReply => 2
  | .tooManyParams => 3
  | .widthMismatch => 4
  | .groupTooNarrow => 5
  | .badListId => 6

end Sys2Proof.Machine
end

