-- ==== Sys2Proof/Machine/Flags.lean ====
section
/-!
DEFINITION. The status flags (10_state.md R41): `busy` and `cmd_ready` (R22), the timer's condition (R37), and the
checksum validity the parser tests (40_codec.md R102).
-/

namespace Sys2Proof.Machine

/-- The read states, in which the parser consumes a byte or times out (R24). -/
def isReadState : PState → Bool
  | .ah1 => true
  | .ah2 => true
  | .rid => true
  | .rlen => true
  | .rcmd => true
  | .rpar => true
  | .rchk => true
  | .idle => false
  | .done => false
  | .fail => false

/-- What `t_armed` is: 1 exactly when `ps` is a read state and `rxq` is empty (R37). -/
def timerArmed (ps : PState) (rxq : List Byte) : Bool := isReadState ps && rxq.isEmpty

/-- `busy = (phase ≠ IDLE)` (R22). -/
def busy (s : State) : Bool := decide (s.phase ≠ .idle)

/-- `cmd_ready = (phase = IDLE)` (R22). -/
def cmdReady (s : State) : Bool := decide (s.phase = .idle)

/-- The checksum test of RCHK: the running sum and the received byte make 0xFF (R102, R113). -/
def checksumHolds (sum c : Byte) : Bool := decide (sum + c = 0xFF)

end Sys2Proof.Machine
end

