-- ==== Sys2Proof/Machine/Operands.lean ====
section
/-!
DEFINITION. The operand checks of every command's CHECK (42_session.md R162, R163, R170, R172, R182), the plan each
command hands to the sequencer (its check, its request frame, whether it expects a response), and the reads of the
parse buffer.
-/

namespace Sys2Proof.Machine

/-- `valid_target(id)`: 0 to 253, or one of the two sentinels (R162). -/
def validTarget (c : Config) (id : Byte) : Bool :=
  decide (id.toNat ≤ 253) || decide (id = c.idBroadcast) || decide (id = c.idController)

/-- Reason 1 (R162). -/
def checkTarget (c : Config) (id : Byte) : Option Reason :=
  if validTarget c id then none else some .badTarget

/-- Reason 2: a command that needs a reply cannot go to ID_BROADCAST (R163). -/
def checkNotBroadcast (c : Config) (id : Byte) : Option Reason :=
  if id = c.idBroadcast then some .broadcastReply else none

/-- Reason 3: the parameter budget, the last item of every CHECK (R182). -/
def checkBudget (c : Config) (params : List Byte) : Option Reason :=
  if params.length ≤ c.maxParams then none else some .tooManyParams

/-- Reason 6: every per-device ID is at most 253 (R170, R172). -/
def checkListIds (ids : List Byte) : Option Reason :=
  if ids.all fun i => decide (i.toNat ≤ 253) then none else some .badListId

/-- Reason 4: every entry has `width` bytes of values (R170). -/
def checkWidths (width : Byte) (entries : List Entry) : Option Reason :=
  if widthsMatch width entries then none else some .widthMismatch

/-- Reason 5: a group holds the position at its offset (R172). The sum is a number, not a byte. -/
def checkGroup (c : Config) (width : Byte) : Option Reason :=
  if c.syncReadPosOffset.toNat + 2 ≤ width.toNat then none else some .groupTooNarrow

/-- What a command gives the sequencer (R160): the first failing check, the request frame if it sends one, and
whether it expects a response (R163). -/
structure Plan where
  verdict : Option Reason
  request : Option (List Byte)
  reply : Bool
deriving DecidableEq, Repr

/-- SEND (R104): reasons 1, then 3; one frame, no response. -/
def planSend (c : Config) (id cmd : Byte) (data : List Byte) : Plan where
  verdict := (checkTarget c id).or (checkBudget c data)
  request := some (encodeFrame id cmd data)
  reply := false

/-- RECV (R119): nothing to check, no frame; it only decodes. -/
def planRecv : Plan where
  verdict := none
  request := none
  reply := true

/-- PING (R165): reasons 1, then 2; no parameters, so the budget always holds. -/
def planPing (c : Config) (id : Byte) : Plan where
  verdict := (checkTarget c id).or (checkNotBroadcast c id)
  request := some (pingFrame c id)
  reply := true

/-- READ_REG (R166): reasons 1, then 2, then 3. -/
def planRead (c : Config) (id addr count : Byte) : Plan where
  verdict := (checkTarget c id).or
    ((checkNotBroadcast c id).or (checkBudget c (readParams addr count)))
  request := some (readFrame c id addr count)
  reply := true

/-- WRITE_REG (R168): reasons 1, then 3; a response unless the target is ID_BROADCAST (R163). -/
def planWrite (c : Config) (id addr : Byte) (data : List Byte) : Plan where
  verdict := (checkTarget c id).or (checkBudget c (writeParams addr data))
  request := some (writeFrame c id addr data)
  reply := decide (id ≠ c.idBroadcast)

/-- SYNC_WRITE (R170): reasons 6, then 4, then 3; never a response. -/
def planSyncWrite (c : Config) (addr width : Byte) (entries : List Entry) : Plan where
  verdict := (checkListIds (entries.map Entry.eid)).or
    ((checkWidths width entries).or (checkBudget c (syncWriteParams addr width entries)))
  request := some (syncWriteFrame c addr width entries)
  reply := false

/-- SYNC_READ (R172): reasons 6, then 5, then 3; always a response. -/
def planSyncRead (c : Config) (ids : List Byte) (width : Byte) : Plan where
  verdict := (checkListIds ids).or ((checkGroup c width).or (checkBudget c ids))
  request := some (syncReadFrame c ids)
  reply := true

/-- TORQUE_ON is `WRITE_REG id, REG_TORQUE_ENABLE, [1]` (R176, 30_encoding.md R91). -/
def planTorqueOn (c : Config) (id : Byte) : Plan := planWrite c id c.regTorqueEnable [1]

/-- TORQUE_OFF is `WRITE_REG id, REG_TORQUE_ENABLE, [0]` (R177, R91). -/
def planTorqueOff (c : Config) (id : Byte) : Plan := planWrite c id c.regTorqueEnable [0]

/-- SET_POSITION is `WRITE_REG id, REG_GOAL_POSITION, [lo8(value), hi8(value)]` (R178, R91). -/
def planSetPosition (c : Config) (id : Byte) (value : Half) : Plan :=
  planWrite c id c.regGoalPosition (halfBytes value)

/-- READ_POSITION is `READ_REG id, REG_PRESENT_POSITION, 2` (R179, R91). -/
def planReadPosition (c : Config) (id : Byte) : Plan := planRead c id c.regPresentPosition 2

/-- FLUSH_TX (41_transport.md R150): nothing to check, no frame, no response. -/
def planFlushTx : Plan where
  verdict := none
  request := none
  reply := false

/-! ## Reads of the parse buffer -/

/-- `p_buf[k]`, held only below `p_n` (10_state.md R28). -/
def paramAt (s : State) (k : Nat) : Option Byte := if k < s.pN then s.pBuf[k]? else none

/-- The decoded packet's parameters, `p_buf[0 .. p_n-1]` (R28, R114). -/
def decodedParams (s : State) : Option (List Byte) :=
  if s.pN ≤ s.pBuf.length then some (s.pBuf.take s.pN) else none

/-- The 16-bit value at `p_buf[k]`, `p_buf[k+1]` (R52). -/
def paramHalf (s : State) (k : Nat) : Option Half :=
  match paramAt s k, paramAt s (k + 1) with
  | some b0, some b1 => some (le16 b0 b1)
  | _, _ => none

/-- The timestamp at `p_buf[0 .. 3]` (R53, R174). -/
def paramStamp (s : State) : Option Stamp :=
  match paramAt s 0, paramAt s 1, paramAt s 2, paramAt s 3 with
  | some b0, some b1, some b2, some b3 => some (le32 b0 b1 b2 b3)
  | _, _, _, _ => none

/-- The positions of `n` groups of `w` bytes after the timestamp, each at byte `off` of its group, from group `k`
on (R174). -/
def groupPositions (s : State) (w off : Nat) : Nat → Nat → Option (List Half)
  | 0, _ => some []
  | n + 1, k =>
    match paramHalf s (4 + k * w + off), groupPositions s w off n (k + 1) with
    | some p, some ps => some (p :: ps)
    | _, _ => none

end Sys2Proof.Machine
end

