-- ==== Sys2Proof/Machine/Ops.lean ====
section
/-!
DEFINITION. The named operations: the failure forms of 60_exceptions.md R202 and `finish` (42_session.md R160), the
decode start and the parser's states (40_codec.md R106 to R115), the sequencer's steps (R160), and the
interpretations (R164, R165, R167, R169, R174; R119).
-/

namespace Sys2Proof.Machine

/-- The outcome of a step of this machine. -/
abbrev StepOutcome := Host.Outcome State Fault Refusal

/-- `t_armed` brought to what R37 says it is, after `ps` or `rxq` was written. -/
def rearm (s : State) : State := { s with tArmed := timerArmed s.ps s.rxq }

/-! ## Results and failures -/

/-- `finish(r)`: the result with the overrun flag of that moment, `res_valid`, and the sequencer to RESULT
(R160). -/
def finish (status : Status) (payload : Payload) (info : Info) (s : State) : State :=
  rearm { s with
    res := { status := status, overrun := s.rxOverrun, payload := payload, info := info }
    resValid := true
    ps := .idle
    phase := .result }

/-- Success: no info (R86). -/
def finishOk (payload : Payload) (s : State) : State := finish .ok payload {} s

/-- TAKING A FAILURE in CHECK or INTERP: status, empty payload, info (R202). -/
def finishFail (kind : Status) (info : Info) (s : State) : State := finish kind .none info s

/-- MALFORMED_REQUEST with its reason (R204). -/
def finishMalformed (r : Reason) (s : State) : State :=
  finishFail .malformedRequest { code := reasonCode r } s

/-- TAKING A FAILURE during a decode: `f_kind`, `f_info`, and the parser to FAIL (R202). -/
def failDecode (kind : Status) (info : Info) (s : State) : State :=
  rearm { s with fKind := kind, fInfo := info, ps := .fail }

/-! ## The decode -/

/-- Phase RX with a fresh decode (R106): every parse register cleared, `rxq` and `p_buf` untouched. -/
def startDecode (s : State) : State :=
  rearm { s with
    phase := .rx
    ps := .ah1
    pId := 0
    pLen := 0
    pCmd := 0
    pChk := 0
    pSum := 0
    pN := 0
    fKind := .ok
    fInfo := {} }

/-- AH1 and AH2: the byte must be 0xFF (R107, R108). -/
def readHeader (here next : PState) (b : Byte) (s : State) : State :=
  if b = 0xFF then rearm { s with ps := next }
  else failDecode .framing { state := psCode here, byte := b } s

/-- RID (R109). -/
def readId (b : Byte) (s : State) : State :=
  rearm { s with pId := b, pSum := b, ps := .rlen }

/-- RLEN, with the length check of policy ABORT (R110). -/
def readLength (b : Byte) (s : State) : State :=
  let s' := { s with pLen := b, pSum := s.pSum + b }
  if b.toNat < 2 ∧ s.cfg.shortLength = .abort then failDecode .length { byte := b } s'
  else rearm { s' with ps := .rcmd }

/-- RCMD: straight to RCHK when no parameter is declared (R111). -/
def readCommand (b : Byte) (s : State) : State :=
  rearm { s with
    pCmd := b
    pSum := s.pSum + b
    ps := if s.pLen.toNat ≤ 2 then .rchk else .rpar }

/-- RPAR: one parameter byte into `p_buf[p_n]` (R112). A write beyond the buffer's depth is a fault. -/
def readParam (b : Byte) (s : State) : Except Fault State :=
  if s.pN < s.pBuf.length then
    .ok (rearm { s with
      pBuf := s.pBuf.set s.pN b
      pN := s.pN + 1
      pSum := s.pSum + b
      ps := if s.pN + 1 = s.pLen.toNat - 2 then .rchk else .rpar })
  else .error .paramBuffer

/-- RCHK: the checksum is tested first, then the length that policy ZERO_PARAMS let pass (R113). -/
def readChecksum (b : Byte) (s : State) : State :=
  let s' := { s with pChk := b }
  if checksumHolds s.pSum b then
    if s.pLen.toNat < 2 then failDecode .length { byte := s.pLen } s'
    else rearm { s' with ps := .done }
  else failDecode .checksum { expected := 0xFF - s.pSum, received := b } s'

/-- The parser's step on a popped byte, by state (R107 to R113). -/
def parseByte (b : Byte) (s : State) : Except Fault State :=
  match s.ps with
  | .ah1 => .ok (readHeader .ah1 .ah2 b s)
  | .ah2 => .ok (readHeader .ah2 .rid b s)
  | .rid => .ok (readId b s)
  | .rlen => .ok (readLength b s)
  | .rcmd => .ok (readCommand b s)
  | .rpar => readParam b s
  | .rchk => .ok (readChecksum b s)
  | .idle => .error .sequence
  | .done => .error .sequence
  | .fail => .error .sequence

/-- A computation of the next state, as an outcome. -/
def outcomeOf : Except Fault State → StepOutcome
  | .ok s => .next s
  | .error f => .fault f

/-- One read of the parser: `pop()` and its state's step (41_transport.md R143), or a wait with `rxq` empty. -/
def popAndParse (s : State) : StepOutcome :=
  match s.rxq with
  | [] => .next s
  | b :: rest => outcomeOf (parseByte b { s with rxq := rest })

/-- Phase RX (R160): the parser runs; once it has ended, the sequencer goes to INTERP in a step of its own
(log 12). -/
def rxStep (s : State) : StepOutcome :=
  match s.ps with
  | .done => .next { s with phase := .interp }
  | .fail => .next { s with phase := .interp }
  | .idle => .fault .sequence
  | _ => popAndParse s

/-- TIMEOUT in a read state with `rxq` empty (R115). -/
def timeoutDecode (s : State) : State := failDecode .timeout { state := psCode s.ps } s

/-! ## The sequencer's steps -/

/-- The whole request frame into `txq` in one step, and phase TX (R140, R160). -/
def emitRequest (frame : List Byte) (s : State) : State :=
  { s with txq := s.txq ++ frame, phase := .tx }

/-- What a command does once its CHECK has passed (R160). -/
def launch (p : Plan) (s : State) : State :=
  match p.request with
  | some frame => emitRequest frame s
  | none => if p.reply then startDecode s else { s with phase := .tx }

/-- The CHECK step: the first failing check finishes the command and emits nothing (R160). -/
def checkStep (p : Plan) (s : State) : State :=
  match p.verdict with
  | some r => finishMalformed r s
  | none => launch p s

/-- The TX step: a wait until `txq` is empty, then the decode or the result (R149, R160). -/
def txStep (p : Plan) (s : State) : State :=
  if s.txq = [] then
    if p.reply then startDecode s else finishOk .none s
  else s

/-- The INTERP step: a failed decode is propagated unchanged, else the command's own interpretation runs
(R164). -/
def interpStep (interpret : State → StepOutcome) (s : State) : StepOutcome :=
  match s.ps with
  | .fail => .next (finishFail s.fKind s.fInfo s)
  | .done => interpret s
  | _ => .fault .sequence

/-- A command's next step (R160). In IDLE and RESULT nothing runs (60_exceptions.md R208, R215). -/
def runCommand (p : Plan) (interpret : State → StepOutcome) (s : State) : StepOutcome :=
  match s.phase with
  | .idle => .next s
  | .check => .next (checkStep p s)
  | .tx => .next (txStep p s)
  | .rx => rxStep s
  | .interp => interpStep interpret s
  | .result => .next s

/-- A reserved `op` (R205): CHECK finishes it with ILLEGAL_COMMAND and its op; it never reaches TX, RX or INTERP. -/
def runIllegal (op : Byte) (s : State) : StepOutcome :=
  match s.phase with
  | .idle => .next s
  | .check => .next (finishFail .illegalCommand { code := op } s)
  | .tx => .fault .sequence
  | .rx => .fault .sequence
  | .interp => .fault .sequence
  | .result => .next s

/-- A wire request frame by itself (30_encoding.md R75 to R79): the CHECK step's budget check (R182) and emission
(R140). In any other phase no request is built and nothing happens (log 14). -/
def runRequest (params frame : List Byte) (s : State) : StepOutcome :=
  match s.phase with
  | .check =>
    match checkBudget s.cfg params with
    | some r => .next (finishMalformed r s)
    | none => .next (emitRequest frame s)
  | _ => .next s

/-! ## The interpretations -/

/-- SEND, SYNC_WRITE and FLUSH_TX, which expect no response whatever the target, have none (R163, log 18). -/
def interpretNothing (_ : State) : StepOutcome := .fault .sequence

/-- A value read from `p_buf`, or the model fault of R216(b). -/
def withParam {α : Type} (v : Option α) (k : α → State) : StepOutcome :=
  match v with
  | some a => .next (k a)
  | none => .fault .paramBuffer

/-- RECV: the whole packet, the command field unchecked (R119). -/
def interpretPacket (s : State) : StepOutcome :=
  withParam (decodedParams s) fun ps => finishOk (.packet s.pId s.pLen s.pCmd ps) s

/-- PING and `status_check()`: success iff the response command is NO_ERROR; the parameters are ignored (R165,
R169). -/
def interpretStatus (s : State) : StepOutcome :=
  if s.pCmd = s.cfg.noError then .next (finishOk .none s)
  else .next (finishFail .device { code := s.pCmd } s)

/-- READ_REG's classification by the parameter count, the command field unchecked (R166, R167). -/
def interpretRead (s : State) : StepOutcome :=
  match s.pN with
  | 0 => .next (finishFail .emptyResponse {} s)
  | 1 => withParam (paramAt s 0) fun b => finishOk (.byte b) s
  | 2 => withParam (paramHalf s 0) fun v => finishOk (.word v) s
  | _ => withParam (decodedParams s) fun ps => finishOk (.raw ps) s

/-- The timestamp and the positions of a sync-read response, if its buffer holds them (R174). -/
def syncPayload (w off n : Nat) (s : State) : Option Payload :=
  match paramStamp s, groupPositions s w off n 0 with
  | some ts, some pos => some (.sync ts pos)
  | _, _ => none

/-- `sync_read_interpret()`: DEVICE first, then the length tests, then the positions (R174). -/
def interpretSyncRead (n : Nat) (width : Byte) (s : State) : StepOutcome :=
  if s.pCmd ≠ s.cfg.noError then .next (finishFail .device { code := s.pCmd } s)
  else if s.pN < 4 ∨ (s.pN - 4) % width.toNat ≠ 0 ∨ (s.pN - 4) / width.toNat ≠ n then
    .next (finishFail .malformedLength { count := BitVec.ofNat 8 s.pN } s)
  else
    withParam (syncPayload width.toNat s.cfg.syncReadPosOffset.toNat n s) fun p => finishOk p s

end Sys2Proof.Machine
end

