-- ==== Sys2Proof/Machine/CodecCommands.lean ====
section
/-! DEFINITION. The codec's own commands: SEND (40_codec.md R104) and RECV (R119). -/

namespace Sys2Proof.Machine

/-- SEND: encode one frame and transmit it, without waiting for a response (R104). -/
def execSend (id cmd : Byte) (data : List Byte) (s : State) : StepOutcome :=
  runCommand (planSend s.cfg id cmd data) interpretNothing s

/-- RECV: decode one frame from `rxq` (R119). -/
def execRecv (s : State) : StepOutcome := runCommand planRecv interpretPacket s

end Sys2Proof.Machine
end

