-- ==== Sys2Proof/Machine/PseudoCommands.lean ====
section
/-! DEFINITION. The pseudo-operations (30_encoding.md R91; 42_session.md R176 to R179): each is its expansion. -/

namespace Sys2Proof.Machine

/-- TORQUE_ON (R176). -/
def execTorqueOn (id : Byte) (s : State) : StepOutcome :=
  runCommand (planTorqueOn s.cfg id) interpretStatus s

/-- TORQUE_OFF (R177). -/
def execTorqueOff (id : Byte) (s : State) : StepOutcome :=
  runCommand (planTorqueOff s.cfg id) interpretStatus s

/-- SET_POSITION (R178). -/
def execSetPosition (id : Byte) (value : Half) (s : State) : StepOutcome :=
  runCommand (planSetPosition s.cfg id value) interpretStatus s

/-- READ_POSITION (R179). -/
def execReadPosition (id : Byte) (s : State) : StepOutcome :=
  runCommand (planReadPosition s.cfg id) interpretRead s

end Sys2Proof.Machine
end

