-- ==== Sys2Proof/Machine/ReservedCommands.lean ====
section
/-! DEFINITION. The reserved `op` values 0x0, 0xD, 0xE, 0xF (60_exceptions.md R205, 30_encoding.md R85). -/

namespace Sys2Proof.Machine

/-- op 0x0 (R205). -/
def execReserved0 (s : State) : StepOutcome := runIllegal 0x00 s

/-- op 0xD (R205). -/
def execReservedD (s : State) : StepOutcome := runIllegal 0x0D s

/-- op 0xE (R205). -/
def execReservedE (s : State) : StepOutcome := runIllegal 0x0E s

/-- op 0xF (R205). -/
def execReservedF (s : State) : StepOutcome := runIllegal 0x0F s

end Sys2Proof.Machine
end

