-- ==== Sys2Proof/Machine/SessionCommands.lean ====
section
/-! DEFINITION. The DeviceSession commands: PING, READ_REG, WRITE_REG, SYNC_WRITE, SYNC_READ (42_session.md). -/

namespace Sys2Proof.Machine

/-- PING (R165). -/
def execPing (id : Byte) (s : State) : StepOutcome :=
  runCommand (planPing s.cfg id) interpretStatus s

/-- READ_REG (R166, R167). -/
def execReadReg (id addr count : Byte) (s : State) : StepOutcome :=
  runCommand (planRead s.cfg id addr count) interpretRead s

/-- WRITE_REG (R168, R169). -/
def execWriteReg (id addr : Byte) (data : List Byte) (s : State) : StepOutcome :=
  runCommand (planWrite s.cfg id addr data) interpretStatus s

/-- SYNC_WRITE (R170). -/
def execSyncWrite (addr width : Byte) (entries : List Entry) (s : State) : StepOutcome :=
  runCommand (planSyncWrite s.cfg addr width entries) interpretNothing s

/-- SYNC_READ (R172 to R174). -/
def execSyncRead (ids : List Byte) (width : Byte) (s : State) : StepOutcome :=
  runCommand (planSyncRead s.cfg ids width) (interpretSyncRead ids.length width) s

end Sys2Proof.Machine
end

