-- ==== Sys2Proof/Machine/TransportCommands.lean ====
section
/-! DEFINITION. The Transport's command: FLUSH_TX (41_transport.md R150). -/

namespace Sys2Proof.Machine

/-- FLUSH_TX: wait until `txq` is empty (R150). -/
def execFlushTx (s : State) : StepOutcome := runCommand planFlushTx interpretNothing s

end Sys2Proof.Machine
end

