-- ==== Sys2Proof/Machine/WireRequests.lean ====
section
/-!
DEFINITION. The five request frames as instructions of their own (30_encoding.md R75 to R79): the emission of the
frame, which is what the CHECK of a host command comes to once its operand checks have passed (log 14).
-/

namespace Sys2Proof.Machine

/-- The PING request frame (R75). -/
def execWirePing (id : Byte) (s : State) : StepOutcome := runRequest [] (pingFrame s.cfg id) s

/-- The READ_REG request frame (R76). -/
def execWireRead (id addr count : Byte) (s : State) : StepOutcome :=
  runRequest (readParams addr count) (readFrame s.cfg id addr count) s

/-- The WRITE_REG request frame (R77). -/
def execWireWrite (id addr : Byte) (data : List Byte) (s : State) : StepOutcome :=
  runRequest (writeParams addr data) (writeFrame s.cfg id addr data) s

/-- The SYNC_WRITE request frame (R78). -/
def execWireSyncWrite (addr width : Byte) (entries : List Entry) (s : State) : StepOutcome :=
  runRequest (syncWriteParams addr width entries) (syncWriteFrame s.cfg addr width entries) s

/-- The SYNC_READ request frame (R79). -/
def execWireSyncRead (ids : List Byte) (s : State) : StepOutcome :=
  runRequest ids (syncReadFrame s.cfg ids) s

end Sys2Proof.Machine
end

