-- ==== Sys2Proof/Machine/Dispatch.lean ====
section
/-! DEFINITION. One arm for each instruction, each a call of its meaning. -/

namespace Sys2Proof.Machine

def exec (i : Instr) (s : State) : Host.Outcome State Fault Refusal :=
  match i with
  | .send id cmd data => Sys2Proof.Machine.execSend id cmd data s
  | .recv => Sys2Proof.Machine.execRecv s
  | .ping id => Sys2Proof.Machine.execPing id s
  | .readReg id addr count => Sys2Proof.Machine.execReadReg id addr count s
  | .writeReg id addr data => Sys2Proof.Machine.execWriteReg id addr data s
  | .syncWrite addr width entries => Sys2Proof.Machine.execSyncWrite addr width entries s
  | .syncRead ids width => Sys2Proof.Machine.execSyncRead ids width s
  | .torqueOn id => Sys2Proof.Machine.execTorqueOn id s
  | .torqueOff id => Sys2Proof.Machine.execTorqueOff id s
  | .setPosition id value => Sys2Proof.Machine.execSetPosition id value s
  | .readPosition id => Sys2Proof.Machine.execReadPosition id s
  | .flushTx => Sys2Proof.Machine.execFlushTx s
  | .reserved0 => Sys2Proof.Machine.execReserved0 s
  | .reservedD => Sys2Proof.Machine.execReservedD s
  | .reservedE => Sys2Proof.Machine.execReservedE s
  | .reservedF => Sys2Proof.Machine.execReservedF s
  | .wirePing id => Sys2Proof.Machine.execWirePing id s
  | .wireRead id addr count => Sys2Proof.Machine.execWireRead id addr count s
  | .wireWrite id addr data => Sys2Proof.Machine.execWireWrite id addr data s
  | .wireSyncWrite addr width entries => Sys2Proof.Machine.execWireSyncWrite addr width entries s
  | .wireSyncRead ids => Sys2Proof.Machine.execWireSyncRead ids s

end Sys2Proof.Machine
end

