-- ==== Sys2Proof/Machine/Events.lean ====
section
/-!
DEFINITION. The events (00_scope.md R11): what each does when it is enabled, and that it does not happen when it is
not (log 7). The fetch of the running command from `cur`, and where a table word is placed for it.
-/

namespace Sys2Proof.Machine

/-- The running command: the instruction `cur` decodes to (10_state.md R23, 30_encoding.md R84). -/
def fetch (s : State) : Except DecodeError Instr := decode s.cfg (.command s.cur)

/-- DXPC's own next step. In IDLE and RESULT nothing runs (R22, 60_exceptions.md R208); else the running command
takes its step. -/
def sequencerEvent (s : State) : StepOutcome :=
  match s.phase with
  | .idle => .next s
  | .result => .next s
  | _ =>
    match fetch s with
    | .ok i => exec i s
    | .error _ => .refused .illFormedRecord

/-- The host puts a record on the command port, behind those it holds already (70_reset_and_hazards.md R245). -/
def offerEvent (c : HostCmd) (s : State) : State :=
  { s with env := { s.env with offered := s.env.offered ++ [c] } }

/-- `accept(c)` (42_session.md R160): with `cmd_ready`, the oldest offered record becomes `cur`. With a command
running, or none offered, nothing is accepted (R22, R245). -/
def acceptEvent (s : State) : StepOutcome :=
  match s.phase, s.env.offered with
  | .idle, c :: cs =>
    if c.wellFormed then
      .next { s with cur := c, phase := .check, env := { s.env with offered := cs } }
    else .refused .illFormedRecord
  | _, _ => .next s

/-- The host takes the result (R161). -/
def takeEvent (s : State) : State :=
  if s.phase = .result then
    { s with
      resValid := false
      phase := .idle
      env := { s.env with taken := s.env.taken ++ [s.res] } }
  else s

/-- The line coder takes the oldest byte of `txq` (41_transport.md R141). -/
def sendEvent (s : State) : State :=
  match s.txq with
  | [] => s
  | b :: rest => { s with txq := rest, env := { s.env with sent := s.env.sent ++ [b] } }

/-- A byte arrives: kept while there is room, else lost with the sticky flag set (R142). -/
def arriveEvent (b : Byte) (s : State) : State :=
  if s.rxq.length < s.cfg.rxFifoDepth then rearm { s with rxq := s.rxq ++ [b] }
  else { s with rxOverrun := true }

/-- The per-byte timeout, enabled exactly while `t_armed` (R146, 40_codec.md R115). -/
def timeoutEvent (s : State) : State := if s.tArmed then timeoutDecode s else s

/-- Reset asserted: every element at its reset value, the configuration and the environment as they were
(70_reset_and_hazards.md R230). -/
def assertResetEvent (s : State) : State := State.atReset s.cfg { s.env with resetHeld := true }

/-- Reset released (R231). -/
def releaseResetEvent (s : State) : State := { s with env := { s.env with resetHeld := false } }

/-- One event. Reset wins: while it is held no other event of DXPC takes effect, and an arriving byte is lost
(R230, R231); the host may still put a record on the port (log 11). -/
def perform (e : Event) (s : State) : StepOutcome :=
  match e with
  | .offer c => .next (offerEvent c s)
  | .assertReset => .next (assertResetEvent s)
  | .releaseReset => .next (releaseResetEvent s)
  | .accept => if s.env.resetHeld then .next s else acceptEvent s
  | .take => .next (if s.env.resetHeld then s else takeEvent s)
  | .send => .next (if s.env.resetHeld then s else sendEvent s)
  | .arrive b => .next (if s.env.resetHeld then s else arriveEvent b s)
  | .timeout => .next (if s.env.resetHeld then s else timeoutEvent s)
  | .seq => if s.env.resetHeld then .next s else sequencerEvent s

/-- The schedule's next event happens; with none, nothing changes (R11, R215, log 8). A configuration that breaks
R7 is refused (R216). -/
def stepEvent (s : State) : StepOutcome :=
  if s.cfg.valid then
    match s.env.schedule with
    | [] => .next s
    | e :: rest => perform e { s with env := { s.env with schedule := rest } }
  else .refused .badConfig

/-- The record that puts a table word's instruction before the sequencer: the host record itself, or for a wire
frame the SEND of its ID, command and parameters (40_codec.md R104, log 15). -/
def recordOfTableWord (w : Nat) : HostCmd :=
  match tableEncoded w with
  | some (.command c) => c
  | some (.frame (_ :: _ :: id :: _ :: cmd :: rest)) =>
      { op := 0x1, id := id, cmd := cmd, data := rest.dropLast }
  | _ => { op := 0 }

/-- `s` with the word's record accepted and the sequencer's step the next event. -/
def placeTableWord (s : State) (w : Nat) : State :=
  { s with
    cur := recordOfTableWord w
    phase := .check
    env := { s.env with schedule := .seq :: s.env.schedule, resetHeld := false } }

end Sys2Proof.Machine
end

