-- ==== Sys2Proof/Machine/Step.lean ====
section
/-! DEFINITION. The step: one event (00_scope.md R11). -/

namespace Sys2Proof.Machine

/-- One step of the machine. -/
def step (s : State) : Host.Outcome State Fault Refusal := stepEvent s

/-- `s` with a word of the opcode table placed where the next step runs it (log 15, log 16). -/
def State.withFetchWord (s : State) (_nbits w : Nat) : State := placeTableWord s w

end Sys2Proof.Machine
end

