-- ==== Sys2Proof/Safety.lean ====
section
/-!
DEFINITION. What counts as a safe run: a step that answers a next state, and the invariant of DXPC's states. The
invariant collects what 10_state.md, 40_codec.md and 41_transport.md say of every reachable state.
-/

namespace Sys2Proof.Machine

/-- The outcome is a next state: no model fault, no refusal. -/
def answersNext (o : StepOutcome) : Prop := ∃ t, o = .next t

/-- The next state of an outcome, if it is one. -/
def nextOf : StepOutcome → Option State
  | .next t => some t
  | .fault _ => none
  | .refused _ => none

/-- The plan a host command hands to the sequencer. A reserved op finishes in CHECK and a wire frame is no command:
they have none. -/
def planOf (c : Config) : Instr → Option Plan
  | .send id cmd data => some (planSend c id cmd data)
  | .recv => some planRecv
  | .ping id => some (planPing c id)
  | .readReg id addr count => some (planRead c id addr count)
  | .writeReg id addr data => some (planWrite c id addr data)
  | .syncWrite addr width entries => some (planSyncWrite c addr width entries)
  | .syncRead ids width => some (planSyncRead c ids width)
  | .torqueOn id => some (planTorqueOn c id)
  | .torqueOff id => some (planTorqueOff c id)
  | .setPosition id value => some (planSetPosition c id value)
  | .readPosition id => some (planReadPosition c id)
  | .flushTx => some planFlushTx
  | .reserved0 => none
  | .reservedD => none
  | .reservedE => none
  | .reservedF => none
  | .wirePing _ => none
  | .wireRead _ _ _ => none
  | .wireWrite _ _ _ => none
  | .wireSyncWrite _ _ _ => none
  | .wireSyncRead _ => none

/-- `response_expected` as the table of 42_session.md R163 gives it, a broadcast PING or read being refused in
CHECK. None for what is not one of the twelve commands. -/
def responseExpected (c : Config) : Instr → Option Bool
  | .send _ _ _ => some false
  | .recv => some true
  | .ping _ => some true
  | .readReg _ _ _ => some true
  | .writeReg id _ _ => some (decide (id ≠ c.idBroadcast))
  | .syncWrite _ _ _ => some false
  | .syncRead _ _ => some true
  | .torqueOn id => some (decide (id ≠ c.idBroadcast))
  | .torqueOff id => some (decide (id ≠ c.idBroadcast))
  | .setPosition id _ => some (decide (id ≠ c.idBroadcast))
  | .readPosition _ => some true
  | .flushTx => some false
  | .reserved0 => none
  | .reservedD => none
  | .reservedE => none
  | .reservedF => none
  | .wirePing _ => none
  | .wireRead _ _ _ => none
  | .wireWrite _ _ _ => none
  | .wireSyncWrite _ _ _ => none
  | .wireSyncRead _ => none

/-- The running command's plan. -/
def runningPlan (s : State) : Option Plan :=
  match fetch s with
  | .ok i => planOf s.cfg i
  | .error _ => none

/-- The parameters received so far (10_state.md R28). -/
def receivedParams (s : State) : List Byte := s.pBuf.take s.pN

/-- `ps` agrees with `phase`: a decode runs in RX, has ended in INTERP, and is nowhere else (42_session.md R160). -/
def parserPlaced : Phase → PState → Bool
  | .rx, .idle => false
  | .rx, _ => true
  | .interp, .done => true
  | .interp, .fail => true
  | .interp, _ => false
  | _, .idle => true
  | _, _ => false

/-- What the parse registers hold, by parser state (10_state.md R25 to R31; 40_codec.md R106 to R114). -/
def parserHolds (s : State) : Bool :=
  match s.ps with
  | .idle => true
  | .ah1 => decide (s.pN = 0 ∧ s.pSum = 0 ∧ s.fKind = .ok ∧ s.fInfo = {})
  | .ah2 => decide (s.pN = 0 ∧ s.pSum = 0 ∧ s.fKind = .ok ∧ s.fInfo = {})
  | .rid => decide (s.pN = 0 ∧ s.pSum = 0 ∧ s.fKind = .ok ∧ s.fInfo = {})
  | .rlen => decide (s.pN = 0 ∧ s.pSum = sum8 [s.pId] ∧ s.fKind = .ok ∧ s.fInfo = {})
  | .rcmd =>
      decide (s.pN = 0 ∧ s.pSum = sum8 [s.pId, s.pLen] ∧ s.fKind = .ok ∧ s.fInfo = {} ∧
        (2 ≤ s.pLen.toNat ∨ s.cfg.shortLength = .zeroParams))
  | .rpar =>
      decide (s.pN < s.pLen.toNat - 2 ∧ s.pSum = sum8 ([s.pId, s.pLen, s.pCmd] ++ receivedParams s) ∧
        s.fKind = .ok ∧ s.fInfo = {})
  | .rchk =>
      decide (s.pN = s.pLen.toNat - 2 ∧ s.pSum = sum8 ([s.pId, s.pLen, s.pCmd] ++ receivedParams s) ∧
        s.fKind = .ok ∧ s.fInfo = {} ∧
        (2 ≤ s.pLen.toNat ∨ s.cfg.shortLength = .zeroParams))
  | .done =>
      decide (s.pLen.toNat = 2 + s.pN ∧ s.pChk = chk8 s.pId s.pLen s.pCmd (receivedParams s) ∧
        s.fKind = .ok ∧ s.fInfo = {})
  | .fail => decide (s.fKind ∈ [.timeout, .framing, .checksum, .length])

/-- The running command: a record of R83, past its CHECK from TX on, and one that expects a response from RX on
(42_session.md R160, R163). -/
def commandHolds (s : State) : Bool :=
  match s.phase with
  | .idle => true
  | .check => s.cur.wellFormed
  | .tx => s.cur.wellFormed && (runningPlan s).any fun p => decide (p.verdict = none)
  | .rx => s.cur.wellFormed && (runningPlan s).any fun p => decide (p.verdict = none) && p.reply
  | .interp => s.cur.wellFormed && (runningPlan s).any fun p => decide (p.verdict = none) && p.reply
  | .result => true

/-- The invariant: a configuration that meets R7, the capacities of R28, R34 and R35, `txq` empty outside TX
(R149), `t_armed` and `res_valid` as R37 and R22 say, the parser and the command as above. -/
def invariant (s : State) : Bool :=
  s.cfg.valid &&
  decide (s.pBuf.length = s.cfg.paramBufDepth) && decide (s.pN ≤ 253) &&
  decide (s.rxq.length ≤ s.cfg.rxFifoDepth) && decide (s.txq.length ≤ s.cfg.maxParams + 6) &&
  (s.txq.isEmpty || decide (s.phase = .tx)) &&
  decide (s.tArmed = timerArmed s.ps s.rxq) && decide (s.resValid = decide (s.phase = .result)) &&
  parserPlaced s.phase s.ps && parserHolds s && commandHolds s

/-- An event that offers no record R83's types do not admit. -/
def eventFits : Event → Bool
  | .offer c => c.wellFormed
  | .accept => true
  | .take => true
  | .send => true
  | .arrive _ => true
  | .timeout => true
  | .seq => true
  | .assertReset => true
  | .releaseReset => true

/-- Every record the host offers, or is to offer, is one of R83. -/
def hostFits (e : Env) : Bool := e.offered.all HostCmd.wellFormed && e.schedule.all eventFits

/-- What no rule reads taken out of a state (10_state.md R23, R28, R40): `cur` with no command running, `res` with
no result waiting, and the bytes of `p_buf` from `p_n` on. -/
def readPart (s : State) : State :=
  { s with
    cur := if s.phase = .idle ∨ s.phase = .result then { op := 0 } else s.cur
    res := if s.resValid then s.res else {}
    pBuf := s.pBuf.take s.pN ++ List.replicate (s.pBuf.length - s.pN) 0 }

end Sys2Proof.Machine
end

