-- ==== Sys2Proof/Certificates/Slice0/Obligations.lean ====
section
/-!
DEFINITION. The statements. First the shapes of next states, written out field by field from the rules that give
them; then one Prop a statement.
-/

open Sys2Proof Sys2Proof.Machine

namespace Sys2Proof.Claims

/-- R162, written out. -/
abbrev targetOk (c : Config) (id : Byte) : Prop := id.toNat ≤ 253 ∨ id = c.idBroadcast ∨ id = c.idController

/-- R160 `finish(r)`: `res`, `res_valid`, `ps` and `phase` written, and nothing else (`t_armed` is 0 with `ps`
IDLE, R37). -/
def finishedState (s : State) (k : Status) (p : Payload) (n : Info) : State :=
  { s with
    res := { status := k, overrun := s.rxOverrun, payload := p, info := n }
    resValid := true
    ps := .idle
    phase := .result
    tArmed := false }

/-- MALFORMED_REQUEST with the reason's number in `info.code` (R204). -/
def malformedState (s : State) (reason : Byte) : State :=
  finishedState s .malformedRequest .none { code := reason }

/-- R140, R160: the whole frame behind `txq`, and phase TX. -/
def queuedState (s : State) (frame : List Byte) : State := { s with txq := s.txq ++ frame, phase := .tx }

/-- R106: phase RX and a fresh decode; `rxq` and `p_buf` as they were, `t_armed` by R37. -/
def decodingState (s : State) : State :=
  { s with
    phase := .rx
    ps := .ah1
    pId := 0
    pLen := 0
    pCmd := 0
    pChk := 0
    pSum := 0
    pN := 0
    fKind := .ok
    fInfo := {}
    tArmed := s.rxq.isEmpty }

/-- R202 in a decode: `f_kind`, `f_info` and `ps`. -/
def failedState (s : State) (k : Status) (n : Info) : State :=
  { s with fKind := k, fInfo := n, ps := .fail, tArmed := false }

/-- R149 and R160: what every command does in phase TX. It waits with `txq` not empty; else it starts its decode if
it expects a response, and finishes if it does not. -/
def drains (i : Instr) (reply : Bool) (s : State) : Prop :=
  (s.txq ≠ [] → exec i s = .next s) ∧
  (s.txq = [] → reply = true → exec i s = .next (decodingState s)) ∧
  (s.txq = [] → reply = false → exec i s = .next (finishedState s .ok .none {}))

/-- R165, R169: success iff the response's command byte is NO_ERROR. -/
def checksStatus (i : Instr) (s : State) : Prop :=
  (s.pCmd = s.cfg.noError → exec i s = .next (finishedState s .ok .none {})) ∧
  (s.pCmd ≠ s.cfg.noError → exec i s = .next (finishedState s .device .none { code := s.pCmd }))

/-- R167: READ_REG's four classes, read from `p_buf` below `p_n`. -/
def classifies (i : Instr) (s : State) : Prop :=
  (s.pN = 0 → exec i s = .next (finishedState s .emptyResponse .none {})) ∧
  (∀ b0, s.pN = 1 → s.pBuf[0]? = some b0 → exec i s = .next (finishedState s .ok (.byte b0) {})) ∧
  (∀ b0 b1, s.pN = 2 → s.pBuf[0]? = some b0 → s.pBuf[1]? = some b1 →
    exec i s = .next (finishedState s .ok (.word (le16 b0 b1)) {})) ∧
  (3 ≤ s.pN → s.pN ≤ s.pBuf.length →
    exec i s = .next (finishedState s .ok (.raw (s.pBuf.take s.pN)) {}))

/-- The parameter bytes of SYNC_WRITE, written out from R78. -/
def syncWriteBytes (addr width : Byte) (entries : List Entry) : List Byte :=
  [addr, width] ++ entries.flatMap fun e => e.eid :: e.vals.flatMap fun v => [lo8 v, hi8 v]

/-- The positions of R174: group k's two bytes at `4 + k·w + off`. -/
def positions (s : State) (w off n : Nat) : List Half :=
  (List.range n).map fun k =>
    le16 (s.pBuf.getD (4 + k * w + off) 0) (s.pBuf.getD (4 + k * w + off + 1) 0)

/-- The schedule of a whole exchange: acceptance, CHECK, the request's bytes sent, the decode started, each
response byte popped as it arrives, then INTERP entered, run, and the result taken. -/
def exchange (sends : Nat) (response : List Byte) : List Event :=
  [.accept, .seq] ++ List.replicate sends .send ++ [.seq] ++
    response.flatMap (fun b => [.arrive b, .seq]) ++ [.seq, .seq, .take]

/-- Reset, idle, nothing waiting: where an exchange begins. -/
abbrev quiet (s : State) : Prop :=
  invariant s = true ∧ s.phase = .idle ∧ s.rxq = [] ∧ s.env.resetHeld = false

end Sys2Proof.Claims

open Sys2Proof.Claims

/-! ## Encodings -/

/-- Every well-formed instruction, a record or a frame, is read back from its encoding (R83, R84; R70, R75 to R79).
A wire frame is well-formed only under a configuration with five distinct opcodes: the model's condition (log 21). -/
def Obligations.DecodeReadsEveryEncoding : Prop :=
  ∀ (c : Config) (i : Instr), i.wellFormed c = true → decode c (encode c i) = .ok i

/-- A frame that reads as an instruction is that instruction's frame, byte for byte (R70, R74 to R79). -/
def Obligations.EncodeRestoresEveryDecodedFrame : Prop :=
  ∀ (c : Config) (bs : List Byte) (i : Instr), decode c (.frame bs) = .ok i → encode c i = .frame bs

/-- R84's table, row by row, on every record R83 admits, whatever its unused fields hold. -/
def Obligations.RecordsDecodeByTheirOp : Prop :=
  ∀ c : HostCmd, c.data.length ≤ 253 → c.ids.length ≤ 253 →
    (c.op = 0x0 → decodeCommand c = .ok .reserved0) ∧
    (c.op = 0x1 → decodeCommand c = .ok (.send c.id c.cmd c.data)) ∧
    (c.op = 0x2 → decodeCommand c = .ok .recv) ∧
    (c.op = 0x3 → decodeCommand c = .ok (.ping c.id)) ∧
    (c.op = 0x4 → decodeCommand c = .ok (.readReg c.id c.addr c.count)) ∧
    (c.op = 0x5 → decodeCommand c = .ok (.writeReg c.id c.addr c.data)) ∧
    (c.op = 0x6 → decodeCommand c = .ok (.syncWrite c.addr c.width c.entries)) ∧
    (c.op = 0x7 → decodeCommand c = .ok (.syncRead c.ids c.width)) ∧
    (c.op = 0x8 → decodeCommand c = .ok (.torqueOn c.id)) ∧
    (c.op = 0x9 → decodeCommand c = .ok (.torqueOff c.id)) ∧
    (c.op = 0xA → decodeCommand c = .ok (.setPosition c.id c.value)) ∧
    (c.op = 0xB → decodeCommand c = .ok (.readPosition c.id)) ∧
    (c.op = 0xC → decodeCommand c = .ok .flushTx) ∧
    (c.op = 0xD → decodeCommand c = .ok .reservedD) ∧
    (c.op = 0xE → decodeCommand c = .ok .reservedE) ∧
    (c.op = 0xF → decodeCommand c = .ok .reservedF)

/-- Three words of the spec, written out: the frame of 95_test_vectors.md E1 is WRITE_REG's request, the record of
its PING has op 3, and a frame whose checksum is wrong is none. -/
def Obligations.SpecWordsDecode : Prop :=
  ∀ c : Config, c.opWrite = 0x03 → c.opPing ≠ 0x03 → c.opRead ≠ 0x03 →
    decode c (.frame [0xFF, 0xFF, 0x01, 0x05, 0x03, 0x1E, 0x96, 0x02, 0x40]) =
      .ok (.wireWrite 0x01 0x1E [0x96, 0x02]) ∧
    decode c (.command { op := 0x3, id := 0x01 }) = .ok (.ping 0x01) ∧
    decode c (.frame [0xFF, 0xFF, 0x01, 0x05, 0x03, 0x1E, 0x96, 0x02, 0x41]) = .error .badChecksum

/-- R70: each byte of a frame of n parameters at its offset, and n + 6 bytes in all. -/
def Obligations.FrameBytesStandAtTheirOffsets : Prop :=
  ∀ (id cmd : Byte) (ps : List Byte), ps.length ≤ 253 →
    (encodeFrame id cmd ps).length = ps.length + 6 ∧
    (encodeFrame id cmd ps)[0]? = some 0xFF ∧ (encodeFrame id cmd ps)[1]? = some 0xFF ∧
    (encodeFrame id cmd ps)[2]? = some id ∧
    ((encodeFrame id cmd ps)[3]?.map BitVec.toNat) = some (2 + ps.length) ∧
    (encodeFrame id cmd ps)[4]? = some cmd ∧
    (∀ k, k < ps.length → (encodeFrame id cmd ps)[5 + k]? = ps[k]?) ∧
    (encodeFrame id cmd ps)[5 + ps.length]? =
      some (0xFF - sum8 ([id, BitVec.ofNat 8 (2 + ps.length), cmd] ++ ps))

/-- R100: the sum reduced once and the sum reduced after every addition are one byte. -/
def Obligations.RunningSumIsTheWholeSum : Prop :=
  ∀ bs : List Byte,
    sum8 bs = bs.foldl (· + ·) 0 ∧ (sum8 bs).toNat = (bs.map BitVec.toNat).sum % 256

/-- R102: the parser's test on the running sum accepts exactly the checksum of the frame's fields. -/
def Obligations.ChecksumTestIsValidity : Prop :=
  ∀ (id len cmd c : Byte) (ps : List Byte),
    checksumHolds (sum8 ([id, len, cmd] ++ ps)) c = true ↔ c = chk8 id len cmd ps

/-- R52, R53: 16-bit and 32-bit values, low byte first, split and joined. -/
def Obligations.LittleEndianSplitAndJoin : Prop :=
  ∀ (v : Half) (a b c d : Byte),
    le16 (lo8 v) (hi8 v) = v ∧ lo8 (le16 a b) = a ∧ hi8 (le16 a b) = b ∧
    (le16 a b).toNat = a.toNat + 256 * b.toNat ∧
    (le32 a b c d).toNat = a.toNat + 2 ^ 8 * b.toNat + 2 ^ 16 * c.toNat + 2 ^ 24 * d.toNat

/-! ## The step

That an event happens when it is the first of env.schedule, and leaves the schedule then, is the model's (log 7), here
and in every statement below that names env.schedule. So are the records env.offered (log 9), env.sent and env.taken
(log 10). -/

/-- When the sequencer's step is the next event and `cur` reads as i, the step is i's, with the event taken from
the schedule. -/
def Obligations.StepRunsTheDecodedCommand : Prop :=
  ∀ (s : State) (i : Instr) (rest : List Event),
    s.cfg.valid = true → s.env.resetHeld = false → s.env.schedule = .seq :: rest →
    s.phase ≠ .idle → s.phase ≠ .result → decode s.cfg (.command s.cur) = .ok i →
    step s = exec i { s with env := { s.env with schedule := rest } }

/-- R11: with no event scheduled nothing changes. That an empty schedule is a machine at rest is the model's
(log 8). -/
def Obligations.EmptyScheduleHoldsTheState : Prop :=
  ∀ s : State, s.cfg.valid = true → s.env.schedule = [] → step s = .next s

/-- R216(a): a configuration that breaks a constraint of R7 is refused, in every state. -/
def Obligations.BrokenConfigurationIsRefused : Prop :=
  ∀ s : State,
    (s.cfg.idBroadcast = s.cfg.idController ∨ s.cfg.idBroadcast = 0xFF ∨ s.cfg.idController = 0xFF ∨
      253 < s.cfg.maxParams ∨ s.cfg.paramBufDepth < 253 ∨ s.cfg.rxFifoDepth < 1) →
    step s = .refused .badConfig

/-- R160 `accept`, R22, R245: the oldest offered record is accepted in IDLE and only there. That an ill-formed
record is refused is the model's (log 17). -/
def Obligations.AcceptTakesTheOldestOfferedRecord : Prop :=
  ∀ (s : State) (rest : List Event),
    s.cfg.valid = true → s.env.resetHeld = false → s.env.schedule = .accept :: rest →
    (∀ c cs, s.phase = .idle → s.env.offered = c :: cs → c.wellFormed = true →
      step s = .next { s with
        cur := c, phase := .check, env := { s.env with schedule := rest, offered := cs } }) ∧
    (∀ c cs, s.phase = .idle → s.env.offered = c :: cs → c.wellFormed = false →
      step s = .refused .illFormedRecord) ∧
    (s.phase ≠ .idle ∨ s.env.offered = [] →
      step s = .next { s with env := { s.env with schedule := rest } })

/-! ## The commands -/

/-- R104: SEND, every form. -/
def Obligations.SendRunsByItsRule : Prop :=
  ∀ (id cmd : Byte) (data : List Byte) (s : State),
    (s.phase = .check → ¬ targetOk s.cfg id → exec (.send id cmd data) s = .next (malformedState s 1)) ∧
    (s.phase = .check → targetOk s.cfg id → s.cfg.maxParams < data.length →
      exec (.send id cmd data) s = .next (malformedState s 3)) ∧
    (s.phase = .check → targetOk s.cfg id → data.length ≤ s.cfg.maxParams →
      exec (.send id cmd data) s = .next (queuedState s (encodeFrame id cmd data))) ∧
    (s.phase = .tx → drains (.send id cmd data) false s)

/-- R119: RECV starts a fresh decode in CHECK and returns the whole packet, its command byte unchecked. -/
def Obligations.RecvRunsByItsRule : Prop :=
  ∀ s : State,
    (s.phase = .check → exec .recv s = .next (decodingState s)) ∧
    (s.phase = .interp → s.ps = .done → s.pN ≤ s.pBuf.length →
      exec .recv s = .next (finishedState s .ok
        (.packet s.pId s.pLen s.pCmd (s.pBuf.take s.pN)) {})) ∧
    (s.phase = .interp → s.ps = .fail →
      exec .recv s = .next (finishedState s s.fKind .none s.fInfo))

/-- R165: PING, every form. -/
def Obligations.PingRunsByItsRule : Prop :=
  ∀ (id : Byte) (s : State),
    (s.phase = .check → ¬ targetOk s.cfg id → exec (.ping id) s = .next (malformedState s 1)) ∧
    (s.phase = .check → targetOk s.cfg id → id = s.cfg.idBroadcast →
      exec (.ping id) s = .next (malformedState s 2)) ∧
    (s.phase = .check → targetOk s.cfg id → id ≠ s.cfg.idBroadcast →
      exec (.ping id) s = .next (queuedState s (encodeFrame id s.cfg.opPing []))) ∧
    (s.phase = .tx → drains (.ping id) true s) ∧
    (s.phase = .interp → s.ps = .done → checksStatus (.ping id) s) ∧
    (s.phase = .interp → s.ps = .fail →
      exec (.ping id) s = .next (finishedState s s.fKind .none s.fInfo))

/-- R166 and R167: READ_REG, every form. -/
def Obligations.ReadRegRunsByItsRule : Prop :=
  ∀ (id addr count : Byte) (s : State),
    (s.phase = .check → ¬ targetOk s.cfg id →
      exec (.readReg id addr count) s = .next (malformedState s 1)) ∧
    (s.phase = .check → targetOk s.cfg id → id = s.cfg.idBroadcast →
      exec (.readReg id addr count) s = .next (malformedState s 2)) ∧
    (s.phase = .check → targetOk s.cfg id → id ≠ s.cfg.idBroadcast → s.cfg.maxParams < 2 →
      exec (.readReg id addr count) s = .next (malformedState s 3)) ∧
    (s.phase = .check → targetOk s.cfg id → id ≠ s.cfg.idBroadcast → 2 ≤ s.cfg.maxParams →
      exec (.readReg id addr count) s =
        .next (queuedState s (encodeFrame id s.cfg.opRead [addr, count]))) ∧
    (s.phase = .tx → drains (.readReg id addr count) true s) ∧
    (s.phase = .interp → s.ps = .done → classifies (.readReg id addr count) s) ∧
    (s.phase = .interp → s.ps = .fail →
      exec (.readReg id addr count) s = .next (finishedState s s.fKind .none s.fInfo))

/-- R168 and R169: WRITE_REG, every form, ID_BROADCAST included. -/
def Obligations.WriteRegRunsByItsRule : Prop :=
  ∀ (id addr : Byte) (data : List Byte) (s : State),
    (s.phase = .check → ¬ targetOk s.cfg id →
      exec (.writeReg id addr data) s = .next (malformedState s 1)) ∧
    (s.phase = .check → targetOk s.cfg id → s.cfg.maxParams < 1 + data.length →
      exec (.writeReg id addr data) s = .next (malformedState s 3)) ∧
    (s.phase = .check → targetOk s.cfg id → 1 + data.length ≤ s.cfg.maxParams →
      exec (.writeReg id addr data) s =
        .next (queuedState s (encodeFrame id s.cfg.opWrite ([addr] ++ data)))) ∧
    (s.phase = .tx → drains (.writeReg id addr data) (decide (id ≠ s.cfg.idBroadcast)) s) ∧
    (s.phase = .interp → s.ps = .done → checksStatus (.writeReg id addr data) s) ∧
    (s.phase = .interp → s.ps = .fail →
      exec (.writeReg id addr data) s = .next (finishedState s s.fKind .none s.fInfo))

/-- R170: SYNC_WRITE, reasons 6, 4 and 3 in that order, the request of R78, no response. -/
def Obligations.SyncWriteRunsByItsRule : Prop :=
  ∀ (addr width : Byte) (es : List Entry) (s : State),
    (s.phase = .check → (∃ e ∈ es, 253 < e.eid.toNat) →
      exec (.syncWrite addr width es) s = .next (malformedState s 6)) ∧
    (s.phase = .check → (∀ e ∈ es, e.eid.toNat ≤ 253) →
      (∃ e ∈ es, 2 * e.vals.length ≠ width.toNat) →
      exec (.syncWrite addr width es) s = .next (malformedState s 4)) ∧
    (s.phase = .check → (∀ e ∈ es, e.eid.toNat ≤ 253) → (∀ e ∈ es, 2 * e.vals.length = width.toNat) →
      s.cfg.maxParams < 2 + (es.map fun e => 1 + 2 * e.vals.length).sum →
      exec (.syncWrite addr width es) s = .next (malformedState s 3)) ∧
    (s.phase = .check → (∀ e ∈ es, e.eid.toNat ≤ 253) → (∀ e ∈ es, 2 * e.vals.length = width.toNat) →
      2 + (es.map fun e => 1 + 2 * e.vals.length).sum ≤ s.cfg.maxParams →
      exec (.syncWrite addr width es) s =
        .next (queuedState s
          (encodeFrame s.cfg.idBroadcast s.cfg.opSyncWrite (syncWriteBytes addr width es)))) ∧
    (s.phase = .tx → drains (.syncWrite addr width es) false s)

/-- R172 and R173: SYNC_READ up to its decode, reasons 6, 5 and 3 in that order, always to ID_CONTROLLER. -/
def Obligations.SyncReadRequestsByItsRule : Prop :=
  ∀ (ids : List Byte) (width : Byte) (s : State),
    (s.phase = .check → (∃ i ∈ ids, 253 < i.toNat) →
      exec (.syncRead ids width) s = .next (malformedState s 6)) ∧
    (s.phase = .check → (∀ i ∈ ids, i.toNat ≤ 253) → width.toNat < s.cfg.syncReadPosOffset.toNat + 2 →
      exec (.syncRead ids width) s = .next (malformedState s 5)) ∧
    (s.phase = .check → (∀ i ∈ ids, i.toNat ≤ 253) → s.cfg.syncReadPosOffset.toNat + 2 ≤ width.toNat →
      s.cfg.maxParams < ids.length →
      exec (.syncRead ids width) s = .next (malformedState s 3)) ∧
    (s.phase = .check → (∀ i ∈ ids, i.toNat ≤ 253) → s.cfg.syncReadPosOffset.toNat + 2 ≤ width.toNat →
      ids.length ≤ s.cfg.maxParams →
      exec (.syncRead ids width) s =
        .next (queuedState s (encodeFrame s.cfg.idController s.cfg.opSyncRead ids))) ∧
    (s.phase = .tx → drains (.syncRead ids width) true s) ∧
    (s.phase = .interp → s.ps = .fail →
      exec (.syncRead ids width) s = .next (finishedState s s.fKind .none s.fInfo))

/-- R174: `sync_read_interpret()`, DEVICE first, then the three length tests, then the timestamp and positions. -/
def Obligations.SyncReadInterpretsByItsRule : Prop :=
  ∀ (ids : List Byte) (width : Byte) (s : State), s.phase = .interp → s.ps = .done →
    s.cfg.syncReadPosOffset.toNat + 2 ≤ width.toNat → s.pN ≤ 253 → s.pN ≤ s.pBuf.length →
    (s.pCmd ≠ s.cfg.noError →
      exec (.syncRead ids width) s = .next (finishedState s .device .none { code := s.pCmd })) ∧
    (s.pCmd = s.cfg.noError →
      (s.pN < 4 ∨ (s.pN - 4) % width.toNat ≠ 0 ∨ (s.pN - 4) / width.toNat ≠ ids.length) →
      exec (.syncRead ids width) s =
        .next (finishedState s .malformedLength .none { count := BitVec.ofNat 8 s.pN })) ∧
    (s.pCmd = s.cfg.noError → 4 ≤ s.pN → (s.pN - 4) % width.toNat = 0 →
      (s.pN - 4) / width.toNat = ids.length →
      exec (.syncRead ids width) s =
        .next (finishedState s .ok
          (.sync
            (le32 (s.pBuf.getD 0 0) (s.pBuf.getD 1 0) (s.pBuf.getD 2 0) (s.pBuf.getD 3 0))
            (positions s width.toNat s.cfg.syncReadPosOffset.toNat ids.length)) {}))

/-- R150: FLUSH_TX waits until `txq` is empty and finishes OK. -/
def Obligations.FlushTxRunsByItsRule : Prop :=
  ∀ s : State,
    (s.phase = .check → exec .flushTx s = .next { s with phase := .tx }) ∧
    (s.phase = .tx → drains .flushTx false s)

/-- R91: each pseudo-operation is its expansion, in every state. -/
def Obligations.PseudoOperationsAreTheirExpansions : Prop :=
  ∀ (id : Byte) (value : Half) (s : State),
    exec (.torqueOn id) s = exec (.writeReg id s.cfg.regTorqueEnable [1]) s ∧
    exec (.torqueOff id) s = exec (.writeReg id s.cfg.regTorqueEnable [0]) s ∧
    exec (.setPosition id value) s =
      exec (.writeReg id s.cfg.regGoalPosition [lo8 value, hi8 value]) s ∧
    exec (.readPosition id) s = exec (.readReg id s.cfg.regPresentPosition 2) s

/-- R176 to R179: the frames TORQUE_ON, TORQUE_OFF, SET_POSITION and READ_POSITION put in `txq`, and their results. -/
def Obligations.PseudoOperationsQueueTheirFramesAndFinish : Prop :=
  ∀ (id : Byte) (value : Half) (s : State),
    (s.phase = .check → targetOk s.cfg id → 3 ≤ s.cfg.maxParams →
      exec (.torqueOn id) s =
        .next (queuedState s (encodeFrame id s.cfg.opWrite [s.cfg.regTorqueEnable, 1])) ∧
      exec (.torqueOff id) s =
        .next (queuedState s (encodeFrame id s.cfg.opWrite [s.cfg.regTorqueEnable, 0])) ∧
      exec (.setPosition id value) s =
        .next (queuedState s
          (encodeFrame id s.cfg.opWrite [s.cfg.regGoalPosition, lo8 value, hi8 value])) ∧
      (id ≠ s.cfg.idBroadcast →
        exec (.readPosition id) s =
          .next (queuedState s (encodeFrame id s.cfg.opRead [s.cfg.regPresentPosition, 2])))) ∧
    (s.phase = .interp → s.ps = .done →
      checksStatus (.torqueOn id) s ∧ checksStatus (.torqueOff id) s ∧
      checksStatus (.setPosition id value) s ∧ classifies (.readPosition id) s)

/-- R205: a reserved op finishes in CHECK with ILLEGAL_COMMAND and its op; nothing is emitted or consumed. -/
def Obligations.ReservedOpsFinishIllegal : Prop :=
  ∀ s : State, s.phase = .check →
    exec .reserved0 s = .next (finishedState s .illegalCommand .none { code := 0x00 }) ∧
    exec .reservedD s = .next (finishedState s .illegalCommand .none { code := 0x0D }) ∧
    exec .reservedE s = .next (finishedState s .illegalCommand .none { code := 0x0E }) ∧
    exec .reservedF s = .next (finishedState s .illegalCommand .none { code := 0x0F })

/-- R75 to R79: the five request frames, header to checksum, and R182's reason 3 above MAX_PARAMS for the four that
have parameters (WIRE_PING has none, so the budget always holds). That a frame by itself is emitted in CHECK, under the
budget of R182, and does nothing in another phase is the model's choice (log 14). -/
def Obligations.WireRequestsQueueTheirFrames : Prop :=
  ∀ (id addr count width : Byte) (data ids : List Byte) (es : List Entry) (s : State),
    (s.phase = .check →
      exec (.wirePing id) s =
        .next (queuedState s [0xFF, 0xFF, id, 2, s.cfg.opPing, 0xFF - (id + 2 + s.cfg.opPing)])) ∧
    (s.phase = .check → 2 ≤ s.cfg.maxParams →
      exec (.wireRead id addr count) s =
        .next (queuedState s [0xFF, 0xFF, id, 4, s.cfg.opRead, addr, count,
          0xFF - (id + 4 + s.cfg.opRead + addr + count)])) ∧
    (s.phase = .check → 1 + data.length ≤ s.cfg.maxParams →
      exec (.wireWrite id addr data) s =
        .next (queuedState s (encodeFrame id s.cfg.opWrite ([addr] ++ data)))) ∧
    (s.phase = .check → 2 + (es.map fun e => 1 + 2 * e.vals.length).sum ≤ s.cfg.maxParams →
      exec (.wireSyncWrite addr width es) s =
        .next (queuedState s
          (encodeFrame s.cfg.idBroadcast s.cfg.opSyncWrite (syncWriteBytes addr width es)))) ∧
    (s.phase = .check → ids.length ≤ s.cfg.maxParams →
      exec (.wireSyncRead ids) s =
        .next (queuedState s (encodeFrame s.cfg.idController s.cfg.opSyncRead ids))) ∧
    (s.phase = .check → s.cfg.maxParams < 2 →
      exec (.wireRead id addr count) s = .next (malformedState s 3)) ∧
    (s.phase = .check → s.cfg.maxParams < 1 + data.length →
      exec (.wireWrite id addr data) s = .next (malformedState s 3)) ∧
    (s.phase = .check → s.cfg.maxParams < 2 + (es.map fun e => 1 + 2 * e.vals.length).sum →
      exec (.wireSyncWrite addr width es) s = .next (malformedState s 3)) ∧
    (s.phase = .check → s.cfg.maxParams < ids.length →
      exec (.wireSyncRead ids) s = .next (malformedState s 3)) ∧
    (s.phase ≠ .check →
      exec (.wirePing id) s = .next s ∧ exec (.wireRead id addr count) s = .next s ∧
      exec (.wireWrite id addr data) s = .next s ∧ exec (.wireSyncWrite addr width es) s = .next s ∧
      exec (.wireSyncRead ids) s = .next s)

/-- A host command whose CHECK passes takes exactly the step of its request frame (R75 to R79, R160; log 14). -/
def Obligations.PassingChecksEmitTheWireRequest : Prop :=
  ∀ (id addr count width : Byte) (data ids : List Byte) (es : List Entry) (s : State),
    s.phase = .check →
    (targetOk s.cfg id → id ≠ s.cfg.idBroadcast →
      exec (.ping id) s = exec (.wirePing id) s ∧
      exec (.readReg id addr count) s = exec (.wireRead id addr count) s) ∧
    (targetOk s.cfg id →
      exec (.writeReg id addr data) s = exec (.wireWrite id addr data) s ∧
      exec (.send id s.cfg.opPing []) s = exec (.wirePing id) s) ∧
    ((∀ e ∈ es, e.eid.toNat ≤ 253) → (∀ e ∈ es, 2 * e.vals.length = width.toNat) →
      exec (.syncWrite addr width es) s = exec (.wireSyncWrite addr width es) s) ∧
    ((∀ i ∈ ids, i.toNat ≤ 253) → s.cfg.syncReadPosOffset.toNat + 2 ≤ width.toNat →
      exec (.syncRead ids width) s = exec (.wireSyncRead ids) s)

/-! ## All commands -/

/-- R163, R149 and R160: each of the twelve commands drains `txq` in phase TX and then starts its decode or
finishes, as R163's table says. -/
def Obligations.EveryCommandDrainsBeforeItGoesOn : Prop :=
  ∀ (i : Instr) (reply : Bool) (s : State),
    responseExpected s.cfg i = some reply → s.phase = .tx → drains i reply s

/-- R107 to R113, R123: the parser's table, the rows in which a byte is consumed. Each of the twelve commands takes
this step on a waiting byte in phase RX. (The timeout rows are TimeoutFiresOnlyWhileArmed's.) -/
def Obligations.ParserFollowsItsTable : Prop :=
  ∀ (i : Instr) (s : State) (b : Byte) (rest : List Byte),
    responseExpected s.cfg i ≠ none → s.phase = .rx → s.rxq = b :: rest →
    (s.ps = .ah1 → b = 0xFF →
      exec i s = .next { s with rxq := rest, ps := .ah2, tArmed := rest.isEmpty }) ∧
    (s.ps = .ah1 → b ≠ 0xFF →
      exec i s = .next (failedState { s with rxq := rest } .framing { state := 1, byte := b })) ∧
    (s.ps = .ah2 → b = 0xFF →
      exec i s = .next { s with rxq := rest, ps := .rid, tArmed := rest.isEmpty }) ∧
    (s.ps = .ah2 → b ≠ 0xFF →
      exec i s = .next (failedState { s with rxq := rest } .framing { state := 2, byte := b })) ∧
    (s.ps = .rid →
      exec i s = .next { s with
        rxq := rest, pId := b, pSum := b, ps := .rlen, tArmed := rest.isEmpty }) ∧
    (s.ps = .rlen → 2 ≤ b.toNat ∨ s.cfg.shortLength = .zeroParams →
      exec i s = .next { s with
        rxq := rest, pLen := b, pSum := s.pSum + b, ps := .rcmd, tArmed := rest.isEmpty }) ∧
    (s.ps = .rlen → b.toNat < 2 → s.cfg.shortLength = .abort →
      exec i s = .next (failedState { s with rxq := rest, pLen := b, pSum := s.pSum + b }
        .length { byte := b })) ∧
    (s.ps = .rcmd → s.pLen.toNat ≤ 2 →
      exec i s = .next { s with
        rxq := rest, pCmd := b, pSum := s.pSum + b, ps := .rchk, tArmed := rest.isEmpty }) ∧
    (s.ps = .rcmd → 2 < s.pLen.toNat →
      exec i s = .next { s with
        rxq := rest, pCmd := b, pSum := s.pSum + b, ps := .rpar, tArmed := rest.isEmpty }) ∧
    (s.ps = .rpar → s.pN < s.pBuf.length → s.pN + 1 ≠ s.pLen.toNat - 2 →
      exec i s = .next { s with
        rxq := rest, pBuf := s.pBuf.set s.pN b, pN := s.pN + 1, pSum := s.pSum + b
        tArmed := rest.isEmpty }) ∧
    (s.ps = .rpar → s.pN < s.pBuf.length → s.pN + 1 = s.pLen.toNat - 2 →
      exec i s = .next { s with
        rxq := rest, pBuf := s.pBuf.set s.pN b, pN := s.pN + 1, pSum := s.pSum + b, ps := .rchk
        tArmed := rest.isEmpty }) ∧
    (s.ps = .rchk → s.pSum + b = 0xFF → 2 ≤ s.pLen.toNat →
      exec i s = .next { s with rxq := rest, pChk := b, ps := .done, tArmed := false }) ∧
    (s.ps = .rchk → s.pSum + b ≠ 0xFF →
      exec i s = .next (failedState { s with rxq := rest, pChk := b }
        .checksum { expected := 0xFF - s.pSum, received := b })) ∧
    (s.ps = .rchk → s.pSum + b = 0xFF → s.pLen.toNat < 2 →
      exec i s = .next (failedState { s with rxq := rest, pChk := b } .length { byte := s.pLen }))

/-- R143 and R160: in phase RX each of the twelve commands waits with `rxq` empty, and goes to INTERP once the
decode has ended. That this is a step of its own is the model's reading (log 12). -/
def Obligations.DecodeWaitsForBytesAndEndsInInterp : Prop :=
  ∀ (i : Instr) (s : State), responseExpected s.cfg i ≠ none → s.phase = .rx →
    (isReadState s.ps = true → s.rxq = [] → exec i s = .next s) ∧
    (s.ps = .done ∨ s.ps = .fail → exec i s = .next { s with phase := .interp })

/-- R146, R115: the timeout fires exactly while `t_armed`, fails the decode with the state it fired in, and
consumes no byte. -/
def Obligations.TimeoutFiresOnlyWhileArmed : Prop :=
  ∀ (s : State) (rest : List Event),
    s.cfg.valid = true → s.env.resetHeld = false → s.env.schedule = .timeout :: rest →
    (s.tArmed = true →
      step s = .next (failedState { s with env := { s.env with schedule := rest } } .timeout
        { state := psCode s.ps })) ∧
    (s.tArmed = false → step s = .next { s with env := { s.env with schedule := rest } })

/-- R164: a failed decode is propagated unchanged by each of the twelve commands, with no payload. -/
def Obligations.FailedDecodePropagates : Prop :=
  ∀ (i : Instr) (s : State), responseExpected s.cfg i ≠ none → s.phase = .interp → s.ps = .fail →
    exec i s = .next (finishedState s s.fKind .none s.fInfo)

/-- R22, R208, R215: nothing runs in IDLE or RESULT. -/
def Obligations.NothingRunsInIdleOrResult : Prop :=
  ∀ (i : Instr) (s : State), s.phase = .idle ∨ s.phase = .result → exec i s = .next s

/-- R33, R23, R36, R38: no instruction's step changes the configuration, `cur`, `rx_overrun` or the environment;
`rxq` only loses its head, in phase RX; outside RX the parse registers change only where a decode starts. -/
def Obligations.InstructionsLeaveTheRestAlone : Prop :=
  ∀ (i : Instr) (s t : State), exec i s = .next t →
    t.cfg = s.cfg ∧ t.cur = s.cur ∧ t.rxOverrun = s.rxOverrun ∧ t.env = s.env ∧
    (t.rxq = s.rxq ∨ (s.phase = .rx ∧ ∃ b, s.rxq = b :: t.rxq)) ∧
    (s.phase ≠ .rx → t.pBuf = s.pBuf) ∧
    (s.phase ≠ .rx → t.phase ≠ .rx →
      t.pId = s.pId ∧ t.pLen = s.pLen ∧ t.pCmd = s.pCmd ∧ t.pChk = s.pChk ∧ t.pSum = s.pSum ∧
      t.pN = s.pN ∧ t.fKind = s.fKind ∧ t.fInfo = s.fInfo) ∧
    (∀ k, k ≠ s.pN → t.pBuf[k]? = s.pBuf[k]?) ∧
    (t.phase ≠ .result → t.res = s.res)

/-- Six places in which the model stops, all of them its own choice (log 18). The fault `sequence`: a reserved op in
TX, RX or INTERP; any of the twelve commands with the parser IDLE in RX, or neither DONE nor FAIL in INTERP; FLUSH_TX,
SEND and SYNC_WRITE after DONE in INTERP. The fault `paramBuffer`: a byte read in RPAR with `p_n` at the buffer's depth
or above; RECV's read of a packet whose `p_n` exceeds the buffer. No other place is meant: a broadcast write after DONE
finishes by its status (WriteRegRunsByItsRule), SEND in RX runs the parser (ParserFollowsItsTable), RECV in TX drains
(EveryCommandDrainsBeforeItGoesOn). -/
def Obligations.ImpossibleStepsFault : Prop :=
  ∀ (i : Instr) (s : State),
    (i = .reserved0 ∨ i = .reservedD ∨ i = .reservedE ∨ i = .reservedF →
      s.phase = .tx ∨ s.phase = .rx ∨ s.phase = .interp → exec i s = .fault .sequence) ∧
    (responseExpected s.cfg i ≠ none → s.phase = .rx → s.ps = .idle → exec i s = .fault .sequence) ∧
    (responseExpected s.cfg i ≠ none → s.phase = .interp → s.ps ≠ .done → s.ps ≠ .fail →
      exec i s = .fault .sequence) ∧
    (i = .flushTx ∨ (∃ id cmd data, i = .send id cmd data) ∨ (∃ a w es, i = .syncWrite a w es) →
      s.phase = .interp → s.ps = .done → exec i s = .fault .sequence) ∧
    (responseExpected s.cfg i ≠ none → s.phase = .rx → s.ps = .rpar → s.rxq ≠ [] →
      s.pBuf.length ≤ s.pN → exec i s = .fault .paramBuffer) ∧
    (i = .recv → s.phase = .interp → s.ps = .done → s.pBuf.length < s.pN →
      exec i s = .fault .paramBuffer)

/-- R21, R22, R24, R87, R88, R204: the codes of the tables, row by row, and `busy` and `cmd_ready`. -/
def Obligations.CodesAreThoseOfTheTables : Prop :=
  [Phase.idle, .check, .tx, .rx, .interp, .result].map phaseCode = [0, 1, 2, 3, 4, 5] ∧
  [PState.idle, .ah1, .ah2, .rid, .rlen, .rcmd, .rpar, .rchk, .done, .fail].map psCode =
    [0, 1, 2, 3, 4, 5, 6, 7, 8, 9] ∧
  [Status.ok, .timeout, .framing, .checksum, .emptyResponse, .malformedLength, .device, .malformedRequest,
    .length, .illegalCommand].map statusCode = [0, 1, 2, 3, 4, 5, 6, 7, 8, 9] ∧
  [Reason.badTarget, .broadcastReply, .tooManyParams, .widthMismatch, .groupTooNarrow, .badListId].map
    reasonCode = [1, 2, 3, 4, 5, 6] ∧
  (∀ (pid plen pcmd v8 : Byte) (v16 : Half) (ts : Stamp) (ps : List Byte) (pos : List Half),
    [Payload.none, .packet pid plen pcmd ps, .byte v8, .word v16, .raw ps, .sync ts pos].map kindCode =
      [0, 1, 2, 3, 4, 5]) ∧
  (∀ s : State, busy s = decide (phaseCode s.phase ≠ 0) ∧ cmdReady s = decide (phaseCode s.phase = 0))

/-! ## The events -/

/-- R141: the TX port takes the oldest byte, one an event. -/
def Obligations.SendTakesTheOldestByte : Prop :=
  ∀ (s : State) (rest : List Event),
    s.cfg.valid = true → s.env.resetHeld = false → s.env.schedule = .send :: rest →
    (∀ b bs, s.txq = b :: bs →
      step s = .next { s with
        txq := bs, env := { s.env with schedule := rest, sent := s.env.sent ++ [b] } }) ∧
    (s.txq = [] → step s = .next { s with env := { s.env with schedule := rest } })

/-- R142: a byte is kept while there is room, in every phase and parser state, else lost with the sticky flag
set. -/
def Obligations.ArrivingByteIsKeptOrLost : Prop :=
  ∀ (s : State) (b : Byte) (rest : List Event),
    s.cfg.valid = true → s.env.resetHeld = false → s.env.schedule = .arrive b :: rest →
    (s.rxq.length < s.cfg.rxFifoDepth →
      step s = .next { s with
        rxq := s.rxq ++ [b], tArmed := false, env := { s.env with schedule := rest } }) ∧
    (s.cfg.rxFifoDepth ≤ s.rxq.length →
      step s = .next { s with rxOverrun := true, env := { s.env with schedule := rest } })

/-- R161: the host takes the result, and only in RESULT. -/
def Obligations.TakenResultFreesTheSequencer : Prop :=
  ∀ (s : State) (rest : List Event),
    s.cfg.valid = true → s.env.resetHeld = false → s.env.schedule = .take :: rest →
    (s.phase = .result →
      step s = .next { s with
        resValid := false, phase := .idle
        env := { s.env with schedule := rest, taken := s.env.taken ++ [s.res] } }) ∧
    (s.phase ≠ .result → step s = .next { s with env := { s.env with schedule := rest } })

/-- R40: what reset leaves, at State.reset and after reset is asserted in any state, for every element R40 gives a
value. -/
def Obligations.ResetGivesEveryElementItsValue : Prop :=
  ∀ (s t : State) (rest : List Event),
    t = State.reset ∨
      (s.cfg.valid = true ∧ s.env.schedule = .assertReset :: rest ∧ step s = .next t) →
    t.phase = .idle ∧ t.ps = .idle ∧ t.pId = 0 ∧ t.pLen = 0 ∧ t.pCmd = 0 ∧ t.pChk = 0 ∧ t.pSum = 0 ∧
    t.pN = 0 ∧ t.fKind = .ok ∧ t.fInfo = {} ∧ t.resValid = false ∧ t.txq = [] ∧ t.rxq = [] ∧
    t.rxOverrun = false ∧ t.tArmed = false

/-- R230, R231: reset always happens, abandons the command without a result, and while it is held nothing but its
release and the host's offering has an effect. What the port does meanwhile is the model's choice (log 11). -/
def Obligations.HeldResetBlocksEveryOtherEvent : Prop :=
  ∀ (s : State) (e : Event) (rest : List Event), s.cfg.valid = true → s.env.schedule = e :: rest →
    (e = .assertReset → ∃ t, step s = .next t ∧ t.env.resetHeld = true ∧ t.cfg = s.cfg ∧
      t.env.taken = s.env.taken ∧ t.env.sent = s.env.sent) ∧
    (e = .releaseReset →
      step s = .next { s with env := { s.env with schedule := rest, resetHeld := false } }) ∧
    (s.env.resetHeld = true → e ≠ .assertReset → e ≠ .releaseReset → (∀ c, e ≠ .offer c) →
      step s = .next { s with env := { s.env with schedule := rest } })

/-! ## The whole machine -/

/-- R33: no step changes the configuration. -/
def Obligations.ConfigurationNeverChanges : Prop :=
  ∀ s t : State, step s = .next t → t.cfg = s.cfg

/-- R23: `cur` is written on acceptance and by reset alone. -/
def Obligations.CurIsWrittenOnlyOnAcceptance : Prop :=
  ∀ s t : State, step s = .next t → t.cur ≠ s.cur →
    (∃ c cs rest, s.env.schedule = .accept :: rest ∧ s.phase = .idle ∧ s.env.offered = c :: cs ∧
      t.cur = c ∧ t.phase = .check) ∨
    (∃ rest, s.env.schedule = .assertReset :: rest)

/-- R21, R160, R151: the sequencer moves only forward through its steps; only taking a result or a reset leads to
IDLE. -/
def Obligations.PhaseMovesOnlyAsTheSequencerSays : Prop :=
  ∀ s t : State, step s = .next t → t.phase ≠ s.phase →
    (∃ rest, s.env.schedule = .assertReset :: rest ∧ t.phase = .idle) ∨
    (s.phase = .idle ∧ t.phase = .check) ∨
    (s.phase = .check ∧ (t.phase = .tx ∨ t.phase = .rx ∨ t.phase = .result)) ∨
    (s.phase = .tx ∧ (t.phase = .rx ∨ t.phase = .result) ∧ s.txq = []) ∨
    (s.phase = .rx ∧ t.phase = .interp) ∨
    (s.phase = .interp ∧ t.phase = .result) ∨
    (s.phase = .result ∧ t.phase = .idle ∧ ∃ rest, s.env.schedule = .take :: rest)

/-- R35, R61, R143: `rxq` grows at its tail by an arrival and loses its head to the parser in a read state, and
nothing else but reset touches it. -/
def Obligations.RxqIsFirstInFirstOut : Prop :=
  ∀ s t : State, step s = .next t →
    t.rxq = s.rxq ∨
    (∃ b rest, s.env.schedule = .arrive b :: rest ∧ t.rxq = s.rxq ++ [b] ∧
      s.rxq.length < s.cfg.rxFifoDepth) ∨
    (∃ b rest, s.env.schedule = .seq :: rest ∧ s.phase = .rx ∧ isReadState s.ps = true ∧
      s.rxq = b :: t.rxq) ∨
    (∃ rest, s.env.schedule = .assertReset :: rest ∧ t.rxq = [])

/-- R34, R61, R140, R141: `txq` grows by one whole frame in the CHECK step and loses its head to the TX port, in
order, and nothing else but reset touches it. -/
def Obligations.TxqIsFirstInFirstOut : Prop :=
  ∀ s t : State, step s = .next t →
    (t.txq = s.txq ∧ t.env.sent = s.env.sent) ∨
    (∃ b rest, s.env.schedule = .send :: rest ∧ s.txq = b :: t.txq ∧ t.env.sent = s.env.sent ++ [b]) ∨
    (∃ id cmd ps rest, s.env.schedule = .seq :: rest ∧ s.phase = .check ∧ t.phase = .tx ∧
      ps.length ≤ s.cfg.maxParams ∧ t.txq = s.txq ++ encodeFrame id cmd ps ∧
      t.env.sent = s.env.sent) ∨
    (∃ rest, s.env.schedule = .assertReset :: rest ∧ t.txq = [] ∧ t.env.sent = s.env.sent)

/-- R36: `rx_overrun` is set by a byte that finds the FIFO full, and cleared by reset alone. -/
def Obligations.OverrunIsStickyUntilReset : Prop :=
  ∀ s t : State, step s = .next t → t.rxOverrun ≠ s.rxOverrun →
    (t.rxOverrun = true ∧ s.cfg.rxFifoDepth ≤ s.rxq.length ∧
      ∃ b rest, s.env.schedule = .arrive b :: rest) ∨
    (t.rxOverrun = false ∧ ∃ rest, s.env.schedule = .assertReset :: rest)

/-- R161, R32: a result waits untouched until it is taken or a reset discards it. -/
def Obligations.ResultWaitsUntilTaken : Prop :=
  ∀ s t : State, step s = .next t → s.phase = .result →
    (∀ rest, s.env.schedule ≠ .take :: rest) → (∀ rest, s.env.schedule ≠ .assertReset :: rest) →
    t.phase = .result ∧ t.res = s.res ∧ t.resValid = s.resValid ∧ t.env.taken = s.env.taken

/-- R202, R39, R86: a result that fails carries no payload, and one that succeeds carries no info; both report the
overrun flag of that moment. -/
def Obligations.ResultsAreOkOrEmpty : Prop :=
  ∀ s t : State, invariant s = true → step s = .next t → s.phase ≠ .result → t.phase = .result →
    (t.res.status ≠ .ok → t.res.payload = .none) ∧ (t.res.status = .ok → t.res.info = {}) ∧
    t.res.overrun = s.rxOverrun ∧ t.resValid = true ∧ t.ps = .idle ∧ t.txq = []

/-! ## Invariants -/

/-- State.reset meets the invariant. -/
def Obligations.ResetMeetsTheInvariant : Prop := invariant State.reset = true

/-- Every step from a state that meets the invariant leads to one that does (R20 to R37, R106 to R114, R149). -/
def Obligations.StepKeepsTheInvariant : Prop :=
  ∀ s t : State, invariant s = true → step s = .next t → invariant t = true

/-- No run from a state that meets the invariant meets a model fault or a refusal, whatever the events, as long as
the host offers records of R83 (R216). -/
def Obligations.NoRunFaultsOrIsRefused : Prop :=
  ∀ (s : State) (k : Nat), invariant s = true → hostFits s.env = true →
    ∃ t, Host.Core.run Sys2Proof.core k s = .next t

/-- R122: a result with a payload comes only from a frame whose checksum held. -/
def Obligations.NoInvalidPacketIsDelivered : Prop :=
  ∀ s t : State, invariant s = true → step s = .next t → s.phase ≠ .result → t.phase = .result →
    t.res.payload ≠ .none →
    s.phase = .interp ∧ s.ps = .done ∧ s.pLen.toNat = 2 + s.pN ∧
      (sum8 ([s.pId, s.pLen, s.pCmd] ++ receivedParams s) + s.pChk) = 0xFF

/-! ## Headlines -/

/-- R120: a decode of `encode(id, cmd, params) ++ rest` reaches DONE with the three fields and leaves `rest`; no
timeout is enabled before. -/
def Obligations.DecodeRecoversEveryEncodedFrame : Prop :=
  ∀ (s : State) (id cmd : Byte) (ps rest : List Byte),
    invariant s = true → s.phase = .rx → s.ps = .ah1 → s.env.resetHeld = false → ps.length ≤ 253 →
    s.rxq = encodeFrame id cmd ps ++ rest → s.env.schedule = List.replicate (ps.length + 6) .seq →
    (∀ j, j < ps.length + 6 →
      ∃ u, Host.Core.run Sys2Proof.core j s = .next u ∧ u.tArmed = false) ∧
    ∃ t, Host.Core.run Sys2Proof.core (ps.length + 6) s = .next t ∧
      t.ps = .done ∧ t.pId = id ∧ t.pCmd = cmd ∧ t.pLen.toNat = 2 + ps.length ∧ t.pN = ps.length ∧
      receivedParams t = ps ∧ t.rxq = rest

/-- R121, but for the length byte: with one header byte changed the decode fails FRAMING; with one other byte
changed it fails CHECKSUM, whatever the change, the whole frame being consumed. -/
def Obligations.OneChangedByteIsDetected : Prop :=
  ∀ (s : State) (id cmd b : Byte) (ps : List Byte) (o : Nat),
    invariant s = true → s.phase = .rx → s.ps = .ah1 → s.env.resetHeld = false → ps.length ≤ 253 →
    o < ps.length + 6 → (encodeFrame id cmd ps)[o]? ≠ some b →
    s.rxq = (encodeFrame id cmd ps).set o b → s.env.schedule = List.replicate (ps.length + 6) .seq →
    (o < 2 → ∃ t, Host.Core.run Sys2Proof.core (o + 1) s = .next t ∧ t.ps = .fail ∧
      t.fKind = .framing ∧ t.fInfo.byte = b ∧ t.fInfo.state = BitVec.ofNat 4 (o + 1)) ∧
    (o = 2 ∨ 4 ≤ o → ∃ t, Host.Core.run Sys2Proof.core (ps.length + 6) s = .next t ∧ t.ps = .fail ∧
      t.fKind = .checksum ∧ t.rxq = [])

/-- R165 with R160, R141, R142, R161: a whole PING exchange. The request goes out byte by byte, any response frame
from any device comes back, and the host takes OK or DEVICE. -/
def Obligations.PingExchangeReportsTheDevice : Prop :=
  ∀ (s : State) (id rid st : Byte) (ps : List Byte),
    quiet s → targetOk s.cfg id → id ≠ s.cfg.idBroadcast → ps.length ≤ 253 →
    s.env.offered = [{ op := 0x3, id := id }] →
    s.env.schedule = exchange 6 (encodeFrame rid st ps) →
    ∃ t, Host.Core.run Sys2Proof.core (exchange 6 (encodeFrame rid st ps)).length s = .next t ∧
      t.phase = .idle ∧ t.rxq = [] ∧ t.txq = [] ∧
      t.env.sent = s.env.sent ++ encodeFrame id s.cfg.opPing [] ∧
      t.env.taken = s.env.taken ++ [
        if st = s.cfg.noError then { overrun := s.rxOverrun }
        else { status := .device, overrun := s.rxOverrun, info := { code := st } }]

/-- R166 and R167 with R160, R141, R142, R161: a whole READ_REG exchange, the response classified by its parameter
count alone. -/
def Obligations.ReadRegExchangeReturnsTheValue : Prop :=
  ∀ (s : State) (id addr count rid st : Byte) (ps : List Byte),
    quiet s → targetOk s.cfg id → id ≠ s.cfg.idBroadcast → 2 ≤ s.cfg.maxParams → ps.length ≤ 253 →
    s.env.offered = [{ op := 0x4, id := id, addr := addr, count := count }] →
    s.env.schedule = exchange 8 (encodeFrame rid st ps) →
    ∃ t, Host.Core.run Sys2Proof.core (exchange 8 (encodeFrame rid st ps)).length s = .next t ∧
      t.phase = .idle ∧ t.rxq = [] ∧ t.txq = [] ∧
      t.env.sent = s.env.sent ++ encodeFrame id s.cfg.opRead [addr, count] ∧
      t.env.taken = s.env.taken ++ [
        match ps with
        | [] => { status := .emptyResponse, overrun := s.rxOverrun }
        | [b0] => { overrun := s.rxOverrun, payload := .byte b0 }
        | [b0, b1] => { overrun := s.rxOverrun, payload := .word (le16 b0 b1) }
        | _ => { overrun := s.rxOverrun, payload := .raw ps }]

/-- R148, R116: with bytes waiting, a decode pops at most the 259 of the longest frame, and its command then
finishes. -/
def Obligations.DecodeEndsWithinTheLongestFrame : Prop :=
  ∀ s : State, invariant s = true → s.phase = .rx → s.env.resetHeld = false → 259 ≤ s.rxq.length →
    s.env.schedule = List.replicate 261 .seq →
    ∃ t popped, Host.Core.run Sys2Proof.core 261 s = .next t ∧ t.phase = .result ∧
      s.rxq = popped ++ t.rxq ∧ popped.length ≤ 259

/-- R23, R28, R40: no step reads `cur` with no command running, `res` with no result waiting, or `p_buf` from `p_n`
on; so the values the model gives them at reset (log 4, log 5, log 6) matter to no run. -/
def Obligations.UnreadStateMattersToNoStep : Prop :=
  ∀ s₁ s₂ : State, invariant s₁ = true → invariant s₂ = true → readPart s₁ = readPart s₂ →
    (nextOf (step s₁)).map readPart = (nextOf (step s₂)).map readPart
end

