-- ==== Sys2Proof/Laws/State.lean ====
section
/-!
SUPPORT. One lemma for each field of State and each operation that updates it, so that no proof unfolds a record
update.
-/

namespace Sys2Proof.Machine

/-! ## rearm -/

@[simp] theorem rearm_cfg (s : State) : (rearm s).cfg = s.cfg := rfl
@[simp] theorem rearm_phase (s : State) : (rearm s).phase = s.phase := rfl
@[simp] theorem rearm_cur (s : State) : (rearm s).cur = s.cur := rfl
@[simp] theorem rearm_ps (s : State) : (rearm s).ps = s.ps := rfl
@[simp] theorem rearm_pId (s : State) : (rearm s).pId = s.pId := rfl
@[simp] theorem rearm_pLen (s : State) : (rearm s).pLen = s.pLen := rfl
@[simp] theorem rearm_pCmd (s : State) : (rearm s).pCmd = s.pCmd := rfl
@[simp] theorem rearm_pChk (s : State) : (rearm s).pChk = s.pChk := rfl
@[simp] theorem rearm_pSum (s : State) : (rearm s).pSum = s.pSum := rfl
@[simp] theorem rearm_pN (s : State) : (rearm s).pN = s.pN := rfl
@[simp] theorem rearm_pBuf (s : State) : (rearm s).pBuf = s.pBuf := rfl
@[simp] theorem rearm_fKind (s : State) : (rearm s).fKind = s.fKind := rfl
@[simp] theorem rearm_fInfo (s : State) : (rearm s).fInfo = s.fInfo := rfl
@[simp] theorem rearm_resValid (s : State) : (rearm s).resValid = s.resValid := rfl
@[simp] theorem rearm_res (s : State) : (rearm s).res = s.res := rfl
@[simp] theorem rearm_txq (s : State) : (rearm s).txq = s.txq := rfl
@[simp] theorem rearm_rxq (s : State) : (rearm s).rxq = s.rxq := rfl
@[simp] theorem rearm_rxOverrun (s : State) : (rearm s).rxOverrun = s.rxOverrun := rfl
@[simp] theorem rearm_tArmed (s : State) : (rearm s).tArmed = timerArmed s.ps s.rxq := rfl
@[simp] theorem rearm_env (s : State) : (rearm s).env = s.env := rfl

/-! ## finish -/

@[simp] theorem finish_cfg (k : Status) (p : Payload) (i : Info) (s : State) :
    (finish k p i s).cfg = s.cfg := rfl
@[simp] theorem finish_phase (k : Status) (p : Payload) (i : Info) (s : State) :
    (finish k p i s).phase = .result := rfl
@[simp] theorem finish_cur (k : Status) (p : Payload) (i : Info) (s : State) :
    (finish k p i s).cur = s.cur := rfl
@[simp] theorem finish_ps (k : Status) (p : Payload) (i : Info) (s : State) :
    (finish k p i s).ps = .idle := rfl
@[simp] theorem finish_pId (k : Status) (p : Payload) (i : Info) (s : State) :
    (finish k p i s).pId = s.pId := rfl
@[simp] theorem finish_pLen (k : Status) (p : Payload) (i : Info) (s : State) :
    (finish k p i s).pLen = s.pLen := rfl
@[simp] theorem finish_pCmd (k : Status) (p : Payload) (i : Info) (s : State) :
    (finish k p i s).pCmd = s.pCmd := rfl
@[simp] theorem finish_pChk (k : Status) (p : Payload) (i : Info) (s : State) :
    (finish k p i s).pChk = s.pChk := rfl
@[simp] theorem finish_pSum (k : Status) (p : Payload) (i : Info) (s : State) :
    (finish k p i s).pSum = s.pSum := rfl
@[simp] theorem finish_pN (k : Status) (p : Payload) (i : Info) (s : State) :
    (finish k p i s).pN = s.pN := rfl
@[simp] theorem finish_pBuf (k : Status) (p : Payload) (i : Info) (s : State) :
    (finish k p i s).pBuf = s.pBuf := rfl
@[simp] theorem finish_fKind (k : Status) (p : Payload) (i : Info) (s : State) :
    (finish k p i s).fKind = s.fKind := rfl
@[simp] theorem finish_fInfo (k : Status) (p : Payload) (i : Info) (s : State) :
    (finish k p i s).fInfo = s.fInfo := rfl
@[simp] theorem finish_resValid (k : Status) (p : Payload) (i : Info) (s : State) :
    (finish k p i s).resValid = true := rfl
@[simp] theorem finish_res (k : Status) (p : Payload) (i : Info) (s : State) :
    (finish k p i s).res = { status := k, overrun := s.rxOverrun, payload := p, info := i } := rfl
@[simp] theorem finish_txq (k : Status) (p : Payload) (i : Info) (s : State) :
    (finish k p i s).txq = s.txq := rfl
@[simp] theorem finish_rxq (k : Status) (p : Payload) (i : Info) (s : State) :
    (finish k p i s).rxq = s.rxq := rfl
@[simp] theorem finish_rxOverrun (k : Status) (p : Payload) (i : Info) (s : State) :
    (finish k p i s).rxOverrun = s.rxOverrun := rfl
@[simp] theorem finish_tArmed (k : Status) (p : Payload) (i : Info) (s : State) :
    (finish k p i s).tArmed = false := rfl
@[simp] theorem finish_env (k : Status) (p : Payload) (i : Info) (s : State) :
    (finish k p i s).env = s.env := rfl

/-! ## failDecode -/

@[simp] theorem failDecode_cfg (k : Status) (i : Info) (s : State) : (failDecode k i s).cfg = s.cfg := rfl
@[simp] theorem failDecode_phase (k : Status) (i : Info) (s : State) :
    (failDecode k i s).phase = s.phase := rfl
@[simp] theorem failDecode_cur (k : Status) (i : Info) (s : State) : (failDecode k i s).cur = s.cur := rfl
@[simp] theorem failDecode_ps (k : Status) (i : Info) (s : State) : (failDecode k i s).ps = .fail := rfl
@[simp] theorem failDecode_pId (k : Status) (i : Info) (s : State) : (failDecode k i s).pId = s.pId := rfl
@[simp] theorem failDecode_pLen (k : Status) (i : Info) (s : State) : (failDecode k i s).pLen = s.pLen := rfl
@[simp] theorem failDecode_pCmd (k : Status) (i : Info) (s : State) : (failDecode k i s).pCmd = s.pCmd := rfl
@[simp] theorem failDecode_pChk (k : Status) (i : Info) (s : State) : (failDecode k i s).pChk = s.pChk := rfl
@[simp] theorem failDecode_pSum (k : Status) (i : Info) (s : State) : (failDecode k i s).pSum = s.pSum := rfl
@[simp] theorem failDecode_pN (k : Status) (i : Info) (s : State) : (failDecode k i s).pN = s.pN := rfl
@[simp] theorem failDecode_pBuf (k : Status) (i : Info) (s : State) : (failDecode k i s).pBuf = s.pBuf := rfl
@[simp] theorem failDecode_fKind (k : Status) (i : Info) (s : State) : (failDecode k i s).fKind = k := rfl
@[simp] theorem failDecode_fInfo (k : Status) (i : Info) (s : State) : (failDecode k i s).fInfo = i := rfl
@[simp] theorem failDecode_resValid (k : Status) (i : Info) (s : State) :
    (failDecode k i s).resValid = s.resValid := rfl
@[simp] theorem failDecode_res (k : Status) (i : Info) (s : State) : (failDecode k i s).res = s.res := rfl
@[simp] theorem failDecode_txq (k : Status) (i : Info) (s : State) : (failDecode k i s).txq = s.txq := rfl
@[simp] theorem failDecode_rxq (k : Status) (i : Info) (s : State) : (failDecode k i s).rxq = s.rxq := rfl
@[simp] theorem failDecode_rxOverrun (k : Status) (i : Info) (s : State) :
    (failDecode k i s).rxOverrun = s.rxOverrun := rfl
@[simp] theorem failDecode_tArmed (k : Status) (i : Info) (s : State) :
    (failDecode k i s).tArmed = false := rfl
@[simp] theorem failDecode_env (k : Status) (i : Info) (s : State) : (failDecode k i s).env = s.env := rfl

/-! ## startDecode -/

@[simp] theorem startDecode_cfg (s : State) : (startDecode s).cfg = s.cfg := rfl
@[simp] theorem startDecode_phase (s : State) : (startDecode s).phase = .rx := rfl
@[simp] theorem startDecode_cur (s : State) : (startDecode s).cur = s.cur := rfl
@[simp] theorem startDecode_ps (s : State) : (startDecode s).ps = .ah1 := rfl
@[simp] theorem startDecode_pId (s : State) : (startDecode s).pId = 0 := rfl
@[simp] theorem startDecode_pLen (s : State) : (startDecode s).pLen = 0 := rfl
@[simp] theorem startDecode_pCmd (s : State) : (startDecode s).pCmd = 0 := rfl
@[simp] theorem startDecode_pChk (s : State) : (startDecode s).pChk = 0 := rfl
@[simp] theorem startDecode_pSum (s : State) : (startDecode s).pSum = 0 := rfl
@[simp] theorem startDecode_pN (s : State) : (startDecode s).pN = 0 := rfl
@[simp] theorem startDecode_pBuf (s : State) : (startDecode s).pBuf = s.pBuf := rfl
@[simp] theorem startDecode_fKind (s : State) : (startDecode s).fKind = .ok := rfl
@[simp] theorem startDecode_fInfo (s : State) : (startDecode s).fInfo = {} := rfl
@[simp] theorem startDecode_resValid (s : State) : (startDecode s).resValid = s.resValid := rfl
@[simp] theorem startDecode_res (s : State) : (startDecode s).res = s.res := rfl
@[simp] theorem startDecode_txq (s : State) : (startDecode s).txq = s.txq := rfl
@[simp] theorem startDecode_rxq (s : State) : (startDecode s).rxq = s.rxq := rfl
@[simp] theorem startDecode_rxOverrun (s : State) : (startDecode s).rxOverrun = s.rxOverrun := rfl
@[simp] theorem startDecode_tArmed (s : State) : (startDecode s).tArmed = s.rxq.isEmpty := rfl
@[simp] theorem startDecode_env (s : State) : (startDecode s).env = s.env := rfl

/-! ## emitRequest -/

@[simp] theorem emitRequest_cfg (f : List Byte) (s : State) : (emitRequest f s).cfg = s.cfg := rfl
@[simp] theorem emitRequest_phase (f : List Byte) (s : State) : (emitRequest f s).phase = .tx := rfl
@[simp] theorem emitRequest_cur (f : List Byte) (s : State) : (emitRequest f s).cur = s.cur := rfl
@[simp] theorem emitRequest_ps (f : List Byte) (s : State) : (emitRequest f s).ps = s.ps := rfl
@[simp] theorem emitRequest_pId (f : List Byte) (s : State) : (emitRequest f s).pId = s.pId := rfl
@[simp] theorem emitRequest_pLen (f : List Byte) (s : State) : (emitRequest f s).pLen = s.pLen := rfl
@[simp] theorem emitRequest_pCmd (f : List Byte) (s : State) : (emitRequest f s).pCmd = s.pCmd := rfl
@[simp] theorem emitRequest_pChk (f : List Byte) (s : State) : (emitRequest f s).pChk = s.pChk := rfl
@[simp] theorem emitRequest_pSum (f : List Byte) (s : State) : (emitRequest f s).pSum = s.pSum := rfl
@[simp] theorem emitRequest_pN (f : List Byte) (s : State) : (emitRequest f s).pN = s.pN := rfl
@[simp] theorem emitRequest_pBuf (f : List Byte) (s : State) : (emitRequest f s).pBuf = s.pBuf := rfl
@[simp] theorem emitRequest_fKind (f : List Byte) (s : State) : (emitRequest f s).fKind = s.fKind := rfl
@[simp] theorem emitRequest_fInfo (f : List Byte) (s : State) : (emitRequest f s).fInfo = s.fInfo := rfl
@[simp] theorem emitRequest_resValid (f : List Byte) (s : State) :
    (emitRequest f s).resValid = s.resValid := rfl
@[simp] theorem emitRequest_res (f : List Byte) (s : State) : (emitRequest f s).res = s.res := rfl
@[simp] theorem emitRequest_txq (f : List Byte) (s : State) : (emitRequest f s).txq = s.txq ++ f := rfl
@[simp] theorem emitRequest_rxq (f : List Byte) (s : State) : (emitRequest f s).rxq = s.rxq := rfl
@[simp] theorem emitRequest_rxOverrun (f : List Byte) (s : State) :
    (emitRequest f s).rxOverrun = s.rxOverrun := rfl
@[simp] theorem emitRequest_tArmed (f : List Byte) (s : State) : (emitRequest f s).tArmed = s.tArmed := rfl
@[simp] theorem emitRequest_env (f : List Byte) (s : State) : (emitRequest f s).env = s.env := rfl

/-! ## The reset values (10_state.md R40) -/

@[simp] theorem atReset_cfg (c : Config) (e : Env) : (State.atReset c e).cfg = c := rfl
@[simp] theorem atReset_phase (c : Config) (e : Env) : (State.atReset c e).phase = .idle := rfl
@[simp] theorem atReset_cur (c : Config) (e : Env) : (State.atReset c e).cur = { op := 0 } := rfl
@[simp] theorem atReset_ps (c : Config) (e : Env) : (State.atReset c e).ps = .idle := rfl
@[simp] theorem atReset_pId (c : Config) (e : Env) : (State.atReset c e).pId = 0 := rfl
@[simp] theorem atReset_pLen (c : Config) (e : Env) : (State.atReset c e).pLen = 0 := rfl
@[simp] theorem atReset_pCmd (c : Config) (e : Env) : (State.atReset c e).pCmd = 0 := rfl
@[simp] theorem atReset_pChk (c : Config) (e : Env) : (State.atReset c e).pChk = 0 := rfl
@[simp] theorem atReset_pSum (c : Config) (e : Env) : (State.atReset c e).pSum = 0 := rfl
@[simp] theorem atReset_pN (c : Config) (e : Env) : (State.atReset c e).pN = 0 := rfl
@[simp] theorem atReset_pBuf (c : Config) (e : Env) : (State.atReset c e).pBuf = List.replicate c.paramBufDepth 0 := rfl
@[simp] theorem atReset_fKind (c : Config) (e : Env) : (State.atReset c e).fKind = .ok := rfl
@[simp] theorem atReset_fInfo (c : Config) (e : Env) : (State.atReset c e).fInfo = {} := rfl
@[simp] theorem atReset_resValid (c : Config) (e : Env) : (State.atReset c e).resValid = false := rfl
@[simp] theorem atReset_res (c : Config) (e : Env) : (State.atReset c e).res = {} := rfl
@[simp] theorem atReset_txq (c : Config) (e : Env) : (State.atReset c e).txq = [] := rfl
@[simp] theorem atReset_rxq (c : Config) (e : Env) : (State.atReset c e).rxq = [] := rfl
@[simp] theorem atReset_rxOverrun (c : Config) (e : Env) : (State.atReset c e).rxOverrun = false := rfl
@[simp] theorem atReset_tArmed (c : Config) (e : Env) : (State.atReset c e).tArmed = false := rfl
@[simp] theorem atReset_env (c : Config) (e : Env) : (State.atReset c e).env = e := rfl

end Sys2Proof.Machine
end

