-- ==== Sys2Proof/Laws/Ops.lean ====
section
/-!
SUPPORT. For each shared operation, one lemma that says once everything it can do. A proof cites these and does not
unfold the operation.
-/

namespace Sys2Proof.Machine

/-! ## The parser -/

/-- What no step of the parser changes, and what it keeps in step: `t_armed` is R37's, the buffer keeps its depth. -/
structure ParserKeeps (s t : State) : Prop where
  cfg : t.cfg = s.cfg
  phase : t.phase = s.phase
  cur : t.cur = s.cur
  resValid : t.resValid = s.resValid
  res : t.res = s.res
  txq : t.txq = s.txq
  rxq : t.rxq = s.rxq
  rxOverrun : t.rxOverrun = s.rxOverrun
  env : t.env = s.env
  depth : t.pBuf.length = s.pBuf.length
  armed : t.tArmed = timerArmed t.ps t.rxq

theorem parserKeeps_failDecode {s u : State} (k : Status) (i : Info) (h : ParserKeeps s (rearm u)) :
    ParserKeeps s (failDecode k i u) where
  cfg := h.cfg
  phase := h.phase
  cur := h.cur
  resValid := h.resValid
  res := h.res
  txq := h.txq
  rxq := h.rxq
  rxOverrun := h.rxOverrun
  env := h.env
  depth := h.depth
  armed := rfl

/-- Every successful parser step keeps what ParserKeeps lists, whatever the state it reads in. -/
theorem parseByte_keeps {b : Byte} {s t : State} (h : parseByte b s = .ok t) : ParserKeeps s t := by
  unfold parseByte at h
  split at h
  case h_1 | h_2 =>
    simp only [Except.ok.injEq] at h; subst h; unfold readHeader
    split
    · constructor <;> rfl
    · constructor <;> rfl
  case h_3 =>
    simp only [Except.ok.injEq] at h; subst h; unfold readId
    constructor <;> rfl
  case h_4 =>
    simp only [Except.ok.injEq] at h; subst h; unfold readLength
    simp only; split
    · constructor <;> rfl
    · constructor <;> rfl
  case h_5 =>
    simp only [Except.ok.injEq] at h; subst h; unfold readCommand
    constructor <;> rfl
  case h_6 =>
    unfold readParam at h; split at h
    · simp only [Except.ok.injEq] at h; subst h
      constructor <;> first | rfl | exact List.length_set
    · cases h
  case h_7 =>
    simp only [Except.ok.injEq] at h; subst h; unfold readChecksum
    simp only; split
    · split
      · constructor <;> rfl
      · constructor <;> rfl
    · constructor <;> rfl
  all_goals cases h

/-- Everything a step in phase RX can do. -/
theorem rxStep_next {s t : State} (h : rxStep s = .next t) :
    ((s.ps = .done ∨ s.ps = .fail) ∧ t = { s with phase := .interp }) ∨
    (isReadState s.ps = true ∧ s.rxq = [] ∧ t = s) ∨
    (isReadState s.ps = true ∧ ∃ b rest, s.rxq = b :: rest ∧
      parseByte b { s with rxq := rest } = .ok t) := by
  unfold rxStep at h
  split at h
  case h_1 e => cases h; exact .inl ⟨.inl e, rfl⟩
  case h_2 e => cases h; exact .inl ⟨.inr e, rfl⟩
  case h_3 e => cases h
  case h_4 hd hf hi =>
    have hr : isReadState s.ps = true := by
      revert hd hf hi; cases s.ps <;> simp [isReadState]
    unfold popAndParse at h
    split at h
    case h_1 e => cases h; exact .inr (.inl ⟨hr, e, rfl⟩)
    case h_2 b rest e =>
      refine .inr (.inr ⟨hr, b, rest, e, ?_⟩)
      cases hp : parseByte b { s with rxq := rest } with
      | ok u => rw [hp] at h; cases h; rfl
      | error f => rw [hp] at h; cases h

/-! ## The sequencer -/

/-- Everything a command's step can do, by phase. -/
theorem runCommand_next {p : Plan} {interpret : State → StepOutcome} {s t : State}
    (h : runCommand p interpret s = .next t) :
    (s.phase = .idle ∧ t = s) ∨ (s.phase = .check ∧ t = checkStep p s) ∨
    (s.phase = .tx ∧ t = txStep p s) ∨ (s.phase = .rx ∧ rxStep s = .next t) ∨
    (s.phase = .interp ∧ s.ps = .fail ∧ t = finishFail s.fKind s.fInfo s) ∨
    (s.phase = .interp ∧ s.ps = .done ∧ interpret s = .next t) ∨ (s.phase = .result ∧ t = s) := by
  unfold runCommand at h
  split at h
  case h_1 e => cases h; exact .inl ⟨e, rfl⟩
  case h_2 e => cases h; exact .inr (.inl ⟨e, rfl⟩)
  case h_3 e => cases h; exact .inr (.inr (.inl ⟨e, rfl⟩))
  case h_4 e => exact .inr (.inr (.inr (.inl ⟨e, h⟩)))
  case h_5 e =>
    unfold interpStep at h
    split at h
    case h_1 f => cases h; exact .inr (.inr (.inr (.inr (.inl ⟨e, f, rfl⟩))))
    case h_2 d => exact .inr (.inr (.inr (.inr (.inr (.inl ⟨e, d, h⟩)))))
    case h_3 => cases h
  case h_6 e => cases h; exact .inr (.inr (.inr (.inr (.inr (.inr ⟨e, rfl⟩)))))

/-- The CHECK step: the first reason finishes the command, else it is launched. -/
theorem checkStep_cases (p : Plan) (s : State) :
    (∃ r, p.verdict = some r ∧ checkStep p s = finishMalformed r s) ∨
    (p.verdict = none ∧ ∃ f, p.request = some f ∧ checkStep p s = emitRequest f s) ∨
    (p.verdict = none ∧ p.request = none ∧ p.reply = true ∧ checkStep p s = startDecode s) ∨
    (p.verdict = none ∧ p.request = none ∧ p.reply = false ∧ checkStep p s = { s with phase := .tx }) := by
  unfold checkStep
  cases hv : p.verdict with
  | some r => exact .inl ⟨r, rfl, rfl⟩
  | none =>
    unfold launch
    cases hq : p.request with
    | some f => exact .inr (.inl ⟨rfl, f, rfl, rfl⟩)
    | none =>
      cases hr : p.reply with
      | true => exact .inr (.inr (.inl ⟨rfl, rfl, rfl, rfl⟩))
      | false => exact .inr (.inr (.inr ⟨rfl, rfl, rfl, rfl⟩))

/-- The TX step: a wait, a decode start, or success. -/
theorem txStep_cases (p : Plan) (s : State) :
    (s.txq ≠ [] ∧ txStep p s = s) ∨
    (s.txq = [] ∧ p.reply = true ∧ txStep p s = startDecode s) ∨
    (s.txq = [] ∧ p.reply = false ∧ txStep p s = finishOk .none s) := by
  unfold txStep
  by_cases h : s.txq = []
  · cases hr : p.reply <;> simp [h]
  · simp [h]

/-! ## The interpretations -/

/-- The interpretation a command runs on a decoded response. -/
def interpretOf : Instr → State → StepOutcome
  | .recv => interpretPacket
  | .ping _ => interpretStatus
  | .readReg _ _ _ => interpretRead
  | .writeReg _ _ _ => interpretStatus
  | .syncRead ids width => interpretSyncRead ids.length width
  | .torqueOn _ => interpretStatus
  | .torqueOff _ => interpretStatus
  | .setPosition _ _ => interpretStatus
  | .readPosition _ => interpretRead
  | _ => interpretNothing

/-- A command with a plan runs it through the sequencer. -/
theorem exec_eq_runCommand {i : Instr} {s : State} {p : Plan} (h : planOf s.cfg i = some p) :
    exec i s = runCommand p (interpretOf i) s := by
  cases i <;> simp only [planOf, Option.some.injEq, reduceCtorEq] at h <;> subst h <;> rfl

/-- An interpretation that answers a next state has finished the command. -/
theorem interpretOf_next {i : Instr} {s t : State} (h : interpretOf i s = .next t) :
    ∃ k p n, t = finish k p n s := by
  have wp : ∀ {α : Type} {v : Option α} {k : α → State}, withParam v k = .next t →
      ∃ a, v = some a ∧ t = k a := by
    intro α v k hv
    cases v with
    | none => cases hv
    | some a => cases hv; exact ⟨a, rfl, rfl⟩
  have hs : interpretStatus s = .next t → ∃ k p n, t = finish k p n s := by
    intro h; unfold interpretStatus at h
    split at h <;> cases h <;> exact ⟨_, _, _, rfl⟩
  have hr : interpretRead s = .next t → ∃ k p n, t = finish k p n s := by
    intro h; unfold interpretRead at h
    split at h
    · cases h; exact ⟨_, _, _, rfl⟩
    all_goals obtain ⟨a, -, rfl⟩ := wp h; exact ⟨_, _, _, rfl⟩
  have hn : ¬ interpretNothing s = .next t := by intro h; cases h
  cases i
  case recv => obtain ⟨a, -, rfl⟩ := wp h; exact ⟨_, _, _, rfl⟩
  case syncRead ids w =>
    simp only [interpretOf, interpretSyncRead] at h
    split at h
    · cases h; exact ⟨_, _, _, rfl⟩
    · split at h
      · cases h; exact ⟨_, _, _, rfl⟩
      · obtain ⟨a, -, rfl⟩ := wp h; exact ⟨_, _, _, rfl⟩
  case ping | writeReg | torqueOn | torqueOff | setPosition => exact hs h
  case readReg | readPosition => exact hr h
  all_goals exact absurd h hn

/-! ## A command without a plan -/

/-- Everything a reserved op can do. -/
theorem runIllegal_next {op : Byte} {s t : State} (h : runIllegal op s = .next t) :
    (s.phase ≠ .check ∧ t = s) ∨
    (s.phase = .check ∧ t = finishFail .illegalCommand { code := op } s) := by
  unfold runIllegal at h
  split at h
  case h_1 e => cases h; exact .inl ⟨by simp [e], rfl⟩
  case h_2 e => cases h; exact .inr ⟨e, rfl⟩
  case h_6 e => cases h; exact .inl ⟨by simp [e], rfl⟩
  all_goals cases h

/-- Everything a wire request frame by itself can do. -/
theorem runRequest_next {ps f : List Byte} {s t : State} (h : runRequest ps f s = .next t) :
    (s.phase ≠ .check ∧ t = s) ∨
    (s.phase = .check ∧ ps.length ≤ s.cfg.maxParams ∧ t = emitRequest f s) ∨
    (s.phase = .check ∧ ¬ ps.length ≤ s.cfg.maxParams ∧ t = finishMalformed .tooManyParams s) := by
  unfold runRequest checkBudget at h
  split at h
  case h_1 e =>
    by_cases hb : ps.length ≤ s.cfg.maxParams
    · simp only [hb, if_true] at h; cases h; exact .inr (.inl ⟨e, hb, rfl⟩)
    · simp only [hb, if_false] at h; cases h; exact .inr (.inr ⟨e, hb, rfl⟩)
  case h_2 e => cases h; exact .inl ⟨by simpa using e, rfl⟩

/-! ## The events -/

/-- The acceptance: a well-formed record in IDLE, or nothing. -/
theorem acceptEvent_next {s t : State} (h : acceptEvent s = .next t) :
    t = s ∨ ∃ c cs, s.phase = .idle ∧ s.env.offered = c :: cs ∧ c.wellFormed = true ∧
      t = { s with cur := c, phase := .check, env := { s.env with offered := cs } } := by
  unfold acceptEvent at h
  split at h
  case h_1 c cs e1 e2 =>
    split at h
    case isTrue hw => cases h; exact .inr ⟨c, cs, e1, e2, hw, rfl⟩
    case isFalse => cases h
  case h_2 => cases h; exact .inl rfl

/-- The step is the next scheduled event, if the configuration is one R7 admits. -/
theorem step_next {s t : State} (h : step s = .next t) :
    s.cfg.valid = true ∧
      ((s.env.schedule = [] ∧ t = s) ∨ ∃ e rest, s.env.schedule = e :: rest ∧
        perform e { s with env := { s.env with schedule := rest } } = .next t) := by
  unfold step stepEvent at h
  split at h
  case isTrue hv =>
    refine ⟨hv, ?_⟩
    split at h
    case h_1 e => cases h; exact .inl ⟨e, rfl⟩
    case h_2 e rest hs => exact .inr ⟨e, rest, hs, h⟩
  case isFalse => cases h

/-- A scheduled event is performed. -/
theorem step_of_event {s : State} {e : Event} {rest : List Event} (hv : s.cfg.valid = true)
    (hs : s.env.schedule = e :: rest) :
    step s = perform e { s with env := { s.env with schedule := rest } } := by
  unfold step stepEvent
  rw [if_pos hv, hs]

/-! ## The running command -/

/-- What a host record decodes to: one of the twelve commands, or a reserved op. A wire frame is never a record. -/
def IsHostInstr (c : Config) (i : Instr) : Prop :=
  (∃ reply, responseExpected c i = some reply) ∨ i = .reserved0 ∨ i = .reservedD ∨ i = .reservedE ∨
    i = .reservedF

theorem ite_of_both {α : Type} {p : Prop} [Decidable p] {a b : α} (Q : α → Prop) (ha : Q a) (hb : Q b) :
    Q (if p then a else b) := by
  split <;> assumption

/-- Whatever its op, a record reads as a host instruction. -/
theorem instrOfOp_isHost (c : Config) (r : HostCmd) : IsHostInstr c (instrOfOp r) := by
  unfold instrOfOp
  iterate 12 refine ite_of_both (IsHostInstr c) (.inl ⟨_, rfl⟩) ?_
  exact ite_of_both (IsHostInstr c) (.inr (.inr (.inl rfl)))
    (ite_of_both (IsHostInstr c) (.inr (.inr (.inr (.inl rfl))))
      (ite_of_both (IsHostInstr c) (.inr (.inr (.inr (.inr rfl)))) (.inr (.inl rfl))))

/-- A fetched instruction comes from a record of R83. -/
theorem fetch_ok {s : State} {i : Instr} (h : fetch s = .ok i) :
    s.cur.wellFormed = true ∧ i = instrOfOp s.cur ∧ IsHostInstr s.cfg i := by
  unfold fetch decode decodeCommand at h
  simp only at h
  split at h
  case isTrue hw => cases h; exact ⟨hw, rfl, instrOfOp_isHost _ _⟩
  case isFalse => cases h

/-- A record of R83 is fetched. -/
theorem fetch_of_wellFormed {s : State} (h : s.cur.wellFormed = true) : fetch s = .ok (instrOfOp s.cur) := by
  unfold fetch decode decodeCommand
  simp only [h, if_true]

/-- The twelve commands are those with a plan, and the plan's reply is R163's. -/
theorem plan_of_responseExpected {c : Config} {i : Instr} {reply : Bool}
    (h : responseExpected c i = some reply) : ∃ p, planOf c i = some p ∧ p.reply = reply := by
  cases i <;> first | (cases h; done) | (cases h; exact ⟨_, rfl, rfl⟩)

/-- Everything an instruction can be to the sequencer: a command with a plan, a reserved op, or a request frame. -/
theorem exec_next {i : Instr} {s t : State} (h : exec i s = .next t) :
    (∃ p, planOf s.cfg i = some p ∧ runCommand p (interpretOf i) s = .next t) ∨
    (∃ op, runIllegal op s = .next t) ∨
    (∃ id cmd ps, runRequest ps (encodeFrame id cmd ps) s = .next t) := by
  cases hp : planOf s.cfg i with
  | some p => exact .inl ⟨p, rfl, by rw [← exec_eq_runCommand hp]; exact h⟩
  | none =>
    right
    cases i
    case reserved0 => exact .inl ⟨0x00, h⟩
    case reservedD => exact .inl ⟨0x0D, h⟩
    case reservedE => exact .inl ⟨0x0E, h⟩
    case reservedF => exact .inl ⟨0x0F, h⟩
    case wirePing id => exact .inr ⟨id, s.cfg.opPing, [], h⟩
    case wireRead id a n => exact .inr ⟨id, s.cfg.opRead, readParams a n, h⟩
    case wireWrite id a d => exact .inr ⟨id, s.cfg.opWrite, writeParams a d, h⟩
    case wireSyncWrite a w es =>
      exact .inr ⟨s.cfg.idBroadcast, s.cfg.opSyncWrite, syncWriteParams a w es, h⟩
    case wireSyncRead ids => exact .inr ⟨s.cfg.idController, s.cfg.opSyncRead, ids, h⟩
    all_goals (exfalso; revert hp; simp [planOf])

/-! ## What an event can do -/

/-- Every way an event can leave a state: nothing happens, or its own effect under its own condition. -/
inductive Performs (s : State) : Event → State → Prop
  | hold (e : Event) : Performs s e s
  | offer (c : HostCmd) : Performs s (.offer c) (offerEvent c s)
  | reset : Performs s .assertReset (assertResetEvent s)
  | release : Performs s .releaseReset (releaseResetEvent s)
  | accept (c : HostCmd) (cs : List HostCmd) (running : s.env.resetHeld = false) (idle : s.phase = .idle)
      (offered : s.env.offered = c :: cs) (fits : c.wellFormed = true) :
      Performs s .accept { s with cur := c, phase := .check, env := { s.env with offered := cs } }
  | take (running : s.env.resetHeld = false) (waiting : s.phase = .result) :
      Performs s .take
        { s with resValid := false, phase := .idle, env := { s.env with taken := s.env.taken ++ [s.res] } }
  | send (b : Byte) (rest : List Byte) (running : s.env.resetHeld = false) (head : s.txq = b :: rest) :
      Performs s .send { s with txq := rest, env := { s.env with sent := s.env.sent ++ [b] } }
  | arrive (b : Byte) (running : s.env.resetHeld = false) (room : s.rxq.length < s.cfg.rxFifoDepth) :
      Performs s (.arrive b) (rearm { s with rxq := s.rxq ++ [b] })
  | lose (b : Byte) (running : s.env.resetHeld = false) (full : s.cfg.rxFifoDepth ≤ s.rxq.length) :
      Performs s (.arrive b) { s with rxOverrun := true }
  | timeout (running : s.env.resetHeld = false) (armed : s.tArmed = true) :
      Performs s .timeout (timeoutDecode s)
  | seq (i : Instr) (t : State) (running : s.env.resetHeld = false) (notIdle : s.phase ≠ .idle)
      (notResult : s.phase ≠ .result) (fetched : fetch s = .ok i) (runs : exec i s = .next t) :
      Performs s .seq t

/-- Everything an event can do. -/
theorem perform_next {e : Event} {s t : State} (h : perform e s = .next t) : Performs s e t := by
  cases e
  case offer c => cases h; exact .offer c
  case assertReset => cases h; exact .reset
  case releaseReset => cases h; exact .release
  case accept =>
    unfold perform at h; simp only at h; split at h
    · cases h; exact .hold _
    · rename_i hr
      rcases acceptEvent_next h with rfl | ⟨c, cs, h1, h2, h3, rfl⟩
      · exact .hold _
      · exact .accept c cs (by simpa using hr) h1 h2 h3
  case take =>
    unfold perform takeEvent at h; simp only at h; cases h
    split
    · exact .hold _
    · split
      · rename_i hr h2; exact .take (by simpa using hr) h2
      · exact .hold _
  case send =>
    unfold perform sendEvent at h; simp only at h; cases h
    split
    · exact .hold _
    · rename_i hr
      split
      · exact .hold _
      · rename_i b rest h2; exact .send b rest (by simpa using hr) h2
  case arrive b =>
    unfold perform arriveEvent at h; simp only at h; cases h
    split
    · exact .hold _
    · rename_i hr
      split
      · rename_i room; exact .arrive b (by simpa using hr) room
      · exact .lose b (by simpa using hr) (by omega)
  case timeout =>
    unfold perform timeoutEvent at h; simp only at h; cases h
    split
    · exact .hold _
    · rename_i hr
      split
      · rename_i armed; exact .timeout (by simpa using hr) armed
      · exact .hold _
  case seq =>
    unfold perform sequencerEvent at h; simp only at h
    split at h
    · cases h; exact .hold _
    · rename_i hr
      split at h
      · cases h; exact .hold _
      · cases h; exact .hold _
      · rename_i h0 h1
        split at h
        · rename_i hi; exact .seq _ _ (by simpa using hr) h0 h1 hi h
        · cases h

/-- Everything a step can do: nothing, or the schedule's next event. -/
theorem step_performs {s t : State} (h : step s = .next t) :
    s.cfg.valid = true ∧ (t = s ∨ ∃ e rest, s.env.schedule = e :: rest ∧
      Performs { s with env := { s.env with schedule := rest } } e t) := by
  obtain ⟨hv, h⟩ := step_next h
  refine ⟨hv, ?_⟩
  rcases h with ⟨-, h⟩ | ⟨e, rest, hs, h⟩
  · exact .inl h
  · exact .inr ⟨e, rest, hs, perform_next h⟩

end Sys2Proof.Machine
end

