-- ==== Sys2Proof/Laws/PerInstr.lean ====
section
/-!
SUPPORT. One lemma for each constructor of Instr: a host command's record carries the op and the operands that read
back as the command (30_encoding.md R84), and a wire request's frame opens with the two header bytes (R70).
-/

namespace Sys2Proof.Laws.RecordOrFrame

open Sys2Proof.Machine

/-- The encoding of an instruction is a record that selects it, or a frame that opens with the header. -/
def Statement (i : Instr) : Prop :=
  ∀ c : Config,
    match encode c i with
    | .command r => instrOfOp r = i
    | .frame bs => bs.take 2 = [0xFF, 0xFF]

theorem send (id cmd : Byte) (data : List Byte) : Statement (.send id cmd data) := fun _ => rfl
theorem recv : Statement .recv := fun _ => rfl
theorem ping (id : Byte) : Statement (.ping id) := fun _ => rfl
theorem readReg (id addr count : Byte) : Statement (.readReg id addr count) := fun _ => rfl
theorem writeReg (id addr : Byte) (data : List Byte) : Statement (.writeReg id addr data) := fun _ => rfl
theorem syncWrite (addr width : Byte) (entries : List Entry) :
    Statement (.syncWrite addr width entries) := fun _ => rfl
theorem syncRead (ids : List Byte) (width : Byte) : Statement (.syncRead ids width) := fun _ => rfl
theorem torqueOn (id : Byte) : Statement (.torqueOn id) := fun _ => rfl
theorem torqueOff (id : Byte) : Statement (.torqueOff id) := fun _ => rfl
theorem setPosition (id : Byte) (value : Half) : Statement (.setPosition id value) := fun _ => rfl
theorem readPosition (id : Byte) : Statement (.readPosition id) := fun _ => rfl
theorem flushTx : Statement .flushTx := fun _ => rfl
theorem reserved0 : Statement .reserved0 := fun _ => rfl
theorem reservedD : Statement .reservedD := fun _ => rfl
theorem reservedE : Statement .reservedE := fun _ => rfl
theorem reservedF : Statement .reservedF := fun _ => rfl
theorem wirePing (id : Byte) : Statement (.wirePing id) := fun _ => rfl
theorem wireRead (id addr count : Byte) : Statement (.wireRead id addr count) := fun _ => rfl
theorem wireWrite (id addr : Byte) (data : List Byte) : Statement (.wireWrite id addr data) := fun _ => rfl
theorem wireSyncWrite (addr width : Byte) (entries : List Entry) :
    Statement (.wireSyncWrite addr width entries) := fun _ => rfl
theorem wireSyncRead (ids : List Byte) : Statement (.wireSyncRead ids) := fun _ => rfl

end Sys2Proof.Laws.RecordOrFrame
end

