-- ==== Sys2Proof/Laws/Runs.lean ====
section
/-!
SUPPORT. Runs of the machine: a run of no step, of one step more, and of two runs one after the other.
-/

namespace Sys2Proof.Machine

theorem run_zero (s : State) : Host.Core.run Sys2Proof.core 0 s = .next s := rfl

/-- A step that answers a next state is the first of the run. -/
theorem run_succ {k : Nat} {s t : State} (h : step s = .next t) :
    Host.Core.run Sys2Proof.core (k + 1) s = Host.Core.run Sys2Proof.core k t := by
  simp only [Host.Core.run]
  rw [show Sys2Proof.core.step s = .next t from h]

/-- A run of j + k steps is a run of k steps from where j steps lead. -/
theorem run_add (j k : Nat) (s : State) :
    Host.Core.run Sys2Proof.core (j + k) s =
      match Host.Core.run Sys2Proof.core j s with
      | .next u => Host.Core.run Sys2Proof.core k u
      | .fault f => .fault f
      | .refused r => .refused r := by
  induction j generalizing s with
  | zero => rw [Nat.zero_add]; rfl
  | succ j ih =>
    rw [Nat.add_right_comm]
    simp only [Host.Core.run]
    cases Sys2Proof.core.step s with
    | next u => exact ih u
    | fault f => rfl
    | refused f => rfl

end Sys2Proof.Machine
end

