-- ==== Sys2Proof/Tests/Slice0.lean ====
section
/-!
SUPPORT. Tests. Every expected value is taken from the spec: a section or vector of 95_test_vectors.md, or a rule,
named before it. First the checks and the decoder, then one step at a time, then a witness for the hypotheses of
each statement.
-/

namespace Sys2Proof.Tests

open Sys2Proof Sys2Proof.Machine Sys2Proof.Claims

/-! ## Small states -/

/-- The reset state, moved to a phase. -/
def at_ (p : Phase) : State := { State.reset with phase := p }

/-- In phase RX in a parser state, with bytes waiting. -/
def reading (q : PState) (bytes : List Byte) : State :=
  { State.reset with phase := .rx, ps := q, rxq := bytes, tArmed := timerArmed q bytes }

/-- In INTERP after a decode of a frame with this command byte and these parameters. -/
def decoded (cmd : Byte) (params : List Byte) : State :=
  { State.reset with
    phase := .interp
    ps := .done
    pLen := lengthByte params.length
    pCmd := cmd
    pChk := chk8 0 (lengthByte params.length) cmd params
    pN := params.length
    pBuf := params ++ List.replicate (253 - params.length) 0 }

/-- In INTERP after a decode that failed as R202 says. -/
def undecoded (k : Status) (n : Info) : State :=
  { State.reset with phase := .interp, ps := .fail, fKind := k, fInfo := n }

/-- The test configuration with a smaller MAX_PARAMS (90_conflicts.md C7). -/
def smallBudget (n : Nat) : State :=
  { at_ .check with cfg := { Config.default with maxParams := n } }

/-- A state with events to come. -/
def scheduled (s : State) (es : List Event) : State := { s with env := { s.env with schedule := es } }

/-- The bytes queued and the phase after a step. -/
def queued (o : StepOutcome) : Option (List Byte × Phase) := (nextOf o).map fun t => (t.txq, t.phase)

/-- The result and the phase after a step. -/
def resultOf (o : StepOutcome) : Option (Result × Phase) := (nextOf o).map fun t => (t.res, t.phase)

/-- The parser state and the bytes left after a step. -/
def parsed (o : StepOutcome) : Option (PState × Status × Info × List Byte) :=
  (nextOf o).map fun t => (t.ps, t.fKind, t.fInfo, t.rxq)

/-- A failure as R202 forms it. -/
def failure (k : Status) (n : Info) : Result := { status := k, info := n }

/-! ## WellFormed: each check refuses an ill-formed term -/

/-- R83: 254 data bytes. -/
theorem test_wf_send_data :
    (Instr.send 1 3 (List.replicate 254 0)).wellFormed Config.default = false := by decide +kernel

/-- R83: 254 data bytes of a WRITE_REG. -/
theorem test_wf_write_data :
    (Instr.writeReg 1 3 (List.replicate 254 0)).wellFormed Config.default = false := by decide +kernel

/-- R83: 254 IDs. -/
theorem test_wf_sync_read_ids :
    (Instr.syncRead (List.replicate 254 0) 2).wellFormed Config.default = false := by decide +kernel

/-- R83: a record with 254 data bytes, and one with 253. -/
theorem test_wf_record :
    ({ op := 1, data := List.replicate 254 0 } : HostCmd).wellFormed = false ∧
      ({ op := 7, ids := List.replicate 254 0 } : HostCmd).wellFormed = false ∧
      ({ op := 1, data := List.replicate 253 0 } : HostCmd).wellFormed = true := by decide +kernel

/-- R71: a wire frame above MAX_PARAMS. -/
theorem test_wf_wire_budget :
    (Instr.wireWrite 1 0 (List.replicate 253 0)).wellFormed Config.default = false ∧
      (Instr.wireRead 1 0 0).wellFormed { Config.default with maxParams := 1 } = false ∧
      (Instr.wireSyncRead [1, 2]).wellFormed { Config.default with maxParams := 1 } = false ∧
      (Instr.wireSyncWrite 0 0 []).wellFormed { Config.default with maxParams := 1 } = false := by
  decide +kernel

/-- R170: an entry whose values do not fill the width. -/
theorem test_wf_width :
    (Instr.wireSyncWrite 0x1E 2 [⟨1, [0x0200, 0x0100]⟩]).wellFormed Config.default = false := by decide

/-- R170, R172: a device ID of 254 in a list. -/
theorem test_wf_list_id :
    (Instr.wireSyncWrite 0x1E 2 [⟨254, [0x0200]⟩]).wellFormed Config.default = false ∧
      (Instr.wireSyncRead [1, 254]).wellFormed Config.default = false := by decide

/-- Log 21: two opcodes alike. -/
theorem test_wf_opcodes :
    (Instr.wirePing 1).wellFormed { Config.default with opRead := 0x01 } = false := by decide

/-- R7: each constraint, broken alone. -/
theorem test_config_invalid :
    Config.default.valid = true ∧
      { Config.default with idController := 0xFE }.valid = false ∧
      { Config.default with idController := 0xFF }.valid = false ∧
      { Config.default with idBroadcast := 0xFF }.valid = false ∧
      { Config.default with maxParams := 254 }.valid = false ∧
      { Config.default with paramBufDepth := 252 }.valid = false ∧
      { Config.default with rxFifoDepth := 0 }.valid = false := by decide

/-! ## Decoding: each constructor from its encoding, written out -/

/-- R84: the sixteen values of `op`. -/
theorem test_decode_ops :
    decodeCommand { op := 0b0000 } = .ok .reserved0 ∧
      decodeCommand { op := 0b0001, id := 1, cmd := 3, data := [0x1E, 0x96, 0x02] } =
        .ok (.send 1 3 [0x1E, 0x96, 0x02]) ∧
      decodeCommand { op := 0b0010 } = .ok .recv ∧
      decodeCommand { op := 0b0011, id := 1 } = .ok (.ping 1) ∧
      decodeCommand { op := 0b0100, id := 1, addr := 0x24, count := 2 } = .ok (.readReg 1 0x24 2) ∧
      decodeCommand { op := 0b0101, id := 1, addr := 0x1E, data := [0x96, 0x02] } =
        .ok (.writeReg 1 0x1E [0x96, 0x02]) ∧
      decodeCommand { op := 0b0110, addr := 0x1E, width := 2, entries := [⟨1, [0x0200]⟩] } =
        .ok (.syncWrite 0x1E 2 [⟨1, [0x0200]⟩]) ∧
      decodeCommand { op := 0b0111, ids := [1, 2, 3], width := 2 } = .ok (.syncRead [1, 2, 3] 2) := by
  refine ⟨rfl, rfl, rfl, rfl, rfl, rfl, rfl, rfl⟩

theorem test_decode_ops_high :
    decodeCommand { op := 0b1000, id := 1 } = .ok (.torqueOn 1) ∧
      decodeCommand { op := 0b1001, id := 1 } = .ok (.torqueOff 1) ∧
      decodeCommand { op := 0b1010, id := 1, value := 0x0296 } = .ok (.setPosition 1 0x0296) ∧
      decodeCommand { op := 0b1011, id := 1 } = .ok (.readPosition 1) ∧
      decodeCommand { op := 0b1100 } = .ok .flushTx ∧
      decodeCommand { op := 0b1101 } = .ok .reservedD ∧
      decodeCommand { op := 0b1110 } = .ok .reservedE ∧
      decodeCommand { op := 0b1111 } = .ok .reservedF := by
  refine ⟨rfl, rfl, rfl, rfl, rfl, rfl, rfl, rfl⟩

/-- R83: a field the op does not use is ignored. -/
theorem test_decode_ignores_unused :
    decodeCommand { op := 0b0011, id := 1, cmd := 9, addr := 9, data := [9], ids := [9], value := 9 } =
      .ok (.ping 1) := rfl

/-- 3.5: PING 1's request. -/
theorem test_decode_wire_ping :
    decode Config.default (.frame [0xFF, 0xFF, 0x01, 0x02, 0x01, 0xFB]) = .ok (.wirePing 1) := rfl

/-- 3.6: READ_REG 1, 0x24, 2's request. -/
theorem test_decode_wire_read :
    decode Config.default (.frame [0xFF, 0xFF, 0x01, 0x04, 0x02, 0x24, 0x02, 0xD2]) =
      .ok (.wireRead 1 0x24 2) := rfl

/-- E1: WRITE_REG 1, 0x1E, [0x96, 0x02]'s request. -/
theorem test_decode_wire_write :
    decode Config.default (.frame [0xFF, 0xFF, 0x01, 0x05, 0x03, 0x1E, 0x96, 0x02, 0x40]) =
      .ok (.wireWrite 1 0x1E [0x96, 0x02]) := rfl

/-- 3.8: SYNC_WRITE's two-device request. -/
theorem test_decode_wire_sync_write :
    decode Config.default
        (.frame [0xFF, 0xFF, 0xFE, 0x0A, 0x83, 0x1E, 0x02, 0x01, 0x00, 0x02, 0x02, 0x00, 0x03, 0x4C]) =
      .ok (.wireSyncWrite 0x1E 2 [⟨1, [0x0200]⟩, ⟨2, [0x0300]⟩]) := rfl

/-- E6: SYNC_READ [1, 2, 3]'s request. -/
theorem test_decode_wire_sync_read :
    decode Config.default (.frame [0xFF, 0xFF, 0xFD, 0x05, 0x84, 0x01, 0x02, 0x03, 0x73]) =
      .ok (.wireSyncRead [1, 2, 3]) := rfl

/-- R70 to R79: each way a frame is no request, by name. -/
theorem test_decode_rejects :
    decode Config.default (.frame [0xFF, 0xFE, 0x01, 0x02, 0x01, 0xFB]) = .error .badHeader ∧
      decode Config.default (.frame [0xFF, 0xFF, 0x01, 0x02, 0x01]) = .error .shortFrame ∧
      decode Config.default (.frame [0xFF, 0xFF, 0x01, 0x01, 0x01, 0xFC]) = .error .badLength ∧
      decode Config.default (.frame [0xFF, 0xFF, 0x01, 0x02, 0x01, 0xFA]) = .error .badChecksum ∧
      decode Config.default (.frame [0xFF, 0xFF, 0x01, 0x02, 0x07, 0xF5]) = .error .unknownOpcode ∧
      decode Config.default (.frame [0xFF, 0xFF, 0x01, 0x02, 0x84, 0x78]) = .error .wrongTarget ∧
      decode Config.default (.frame [0xFF, 0xFF, 0x01, 0x03, 0x01, 0x00, 0xFA]) = .error .badParams ∧
      decode Config.default (.frame [0xFF, 0xFF, 0x01, 0x02, 0x01, 0xFB, 0x00]) = .error .trailingBytes := by
  refine ⟨rfl, rfl, rfl, rfl, rfl, rfl, rfl, rfl⟩

/-- R83: a record no port carries. -/
theorem test_decode_rejects_long_record :
    decodeCommand { op := 1, data := List.replicate 254 0 } = .error .recordTooLong := by
  unfold decodeCommand
  exact if_neg (by decide +kernel)

/-- The words of the opcode table: an `op`, and the two command bytes matched whole (log 15). -/
theorem test_table_words :
    decodeTableWord 8 0x03 = some (.ping 0) ∧ decodeTableWord 8 0x0F = some .reservedF ∧
      decodeTableWord 8 0x83 = some (.wireSyncWrite 0 0 []) ∧
      decodeTableWord 8 0x84 = some (.wireSyncRead []) ∧ decodeTableWord 8 0x100 = none := by
  refine ⟨rfl, rfl, rfl, rfl, rfl⟩

/-- A placed word is the next step's instruction: FLUSH_TX goes to TX, op 0xD finishes with its code. -/
theorem test_fetch_word :
    queued (step (State.reset.withFetchWord 8 0x0C)) = some ([], .tx) ∧
      resultOf (step (State.reset.withFetchWord 8 0x0D)) =
        some (failure .illegalCommand { code := 0x0D }, .result) ∧
      queued (step (State.reset.withFetchWord 8 0x84)) =
        some ([0xFF, 0xFF, 0xFD, 0x02, 0x84, 0x7C], .tx) := by decide +kernel

/-! ## The wire: 3.1's checksums -/

theorem test_checksums :
    chk8 0x01 0x05 0x03 [0x1E, 0x96, 0x02] = 0x40 ∧ chk8 0x00 0x02 0x00 [] = 0xFD ∧
      chk8 0xFE 0x02 0x83 [] = 0x7C ∧ chk8 0xFD 0x02 0x00 [] = 0x00 ∧
      chk8 0x00 0x05 0x00 [0x00, 0x00, 0xFB] = 0xFF := by decide

/-- 3.1: the largest frame. -/
theorem test_checksum_largest : chk8 0xFE 0xFF 0x03 (List.replicate 253 0xFF) = 0xFC := by decide +kernel

/-- R52, R53. -/
theorem test_little_endian :
    lo8 0x0296 = 0x96 ∧ hi8 0x0296 = 0x02 ∧ le16 0x34 0x01 = 0x0134 ∧
      le32 0x45 0x23 0x01 0x00 = 0x00012345 := by decide

/-! ## One step of each instruction -/

/-- 3.2: SEND. -/
theorem test_send :
    queued (exec (.send 1 3 [0x1E, 0x96, 0x02]) (at_ .check)) =
      some ([0xFF, 0xFF, 0x01, 0x05, 0x03, 0x1E, 0x96, 0x02, 0x40], .tx) := by decide +kernel

/-- 3.2: SEND to 0xFF, reason 1. -/
theorem test_send_bad_target :
    resultOf (exec (.send 0xFF 1 []) (at_ .check)) =
      some (failure .malformedRequest { code := 1 }, .result) := by decide +kernel

/-- 3.3: RECV of a whole packet. -/
theorem test_recv :
    resultOf (exec .recv (decoded 0x00 [0xFF, 0xFF])) =
      some ({ payload := .packet 0x00 0x04 0x00 [0xFF, 0xFF] }, .result) := by decide +kernel

/-- 3.3: RECV, the checksum byte 0x41 for 0x40. -/
theorem test_recv_checksum :
    parsed (exec .recv { reading .rchk [0x41] with pSum := 0xBF, pLen := 5 }) =
      some (.fail, .checksum, { expected := 0x40, received := 0x41 }, []) := by decide +kernel

/-- 3.5: PING, a device fault. -/
theorem test_ping_device :
    resultOf (exec (.ping 1) (decoded 0x20 [])) =
      some (failure .device { code := 0x20 }, .result) := by decide +kernel

/-- 3.5: PING 0xFE, reason 2. -/
theorem test_ping_broadcast :
    resultOf (exec (.ping 0xFE) (at_ .check)) =
      some (failure .malformedRequest { code := 2 }, .result) := by decide +kernel

/-- 3.6: READ_REG, a device fault's command byte and two parameters: the word. -/
theorem test_read_reg_word :
    resultOf (exec (.readReg 1 0x24 2) (decoded 0x04 [0x34, 0x01])) =
      some ({ payload := .word 0x0134 }, .result) := by decide +kernel

/-- 3.6: READ_REG, no parameter. -/
theorem test_read_reg_empty :
    resultOf (exec (.readReg 1 0x24 2) (decoded 0x00 [])) =
      some (failure .emptyResponse {}, .result) := by decide +kernel

/-- 3.7: WRITE_REG of no value. -/
theorem test_write_reg :
    queued (exec (.writeReg 1 0x18 []) (at_ .check)) =
      some ([0xFF, 0xFF, 0x01, 0x03, 0x03, 0x18, 0xE0], .tx) := by decide +kernel

/-- 3.7: WRITE_REG of 253 values, reason 3. -/
theorem test_write_reg_budget :
    resultOf (exec (.writeReg 1 0x18 (List.replicate 253 0)) (at_ .check)) =
      some (failure .malformedRequest { code := 3 }, .result) := by decide +kernel

/-- 3.8: SYNC_WRITE, width 4. -/
theorem test_sync_write :
    queued (exec (.syncWrite 0x1E 4 [⟨1, [0x0200, 0x0100]⟩, ⟨2, [0x0300, 0x0400]⟩]) (at_ .check)) =
      some ([0xFF, 0xFF, 0xFE, 0x0E, 0x83, 0x1E, 0x04, 0x01, 0x00, 0x02, 0x00, 0x01,
        0x02, 0x00, 0x03, 0x00, 0x04, 0x41], .tx) := by decide +kernel

/-- 3.8: reason 6 before reason 4. -/
theorem test_sync_write_order :
    resultOf (exec (.syncWrite 0x1E 2 [⟨254, [0x0200, 0x0100]⟩]) (at_ .check)) =
      some (failure .malformedRequest { code := 6 }, .result) := by decide +kernel

/-- 3.9: SYNC_READ, three groups of width 3. -/
theorem test_sync_read :
    resultOf (exec (.syncRead [1, 2, 3] 3)
        (decoded 0x00 [0x45, 0x23, 0x01, 0x00, 0x01, 0x00, 0x02, 0x02, 0x01, 0x03, 0x03, 0xFF, 0x03])) =
      some ({ payload := .sync 0x00012345 [0x0001, 0x0102, 0xFF03] }, .result) := by decide +kernel

/-- 3.9: DEVICE is tested before the lengths. -/
theorem test_sync_read_device :
    resultOf (exec (.syncRead [1, 2, 3] 2) (decoded 0x01 [0x01, 0x02, 0x03])) =
      some (failure .device { code := 0x01 }, .result) := by decide +kernel

/-- 3.7: TORQUE_ON 1. -/
theorem test_torque_on :
    queued (exec (.torqueOn 1) (at_ .check)) =
      some ([0xFF, 0xFF, 0x01, 0x04, 0x03, 0x18, 0x01, 0xDE], .tx) := by decide +kernel

/-- 3.7: TORQUE_OFF 0xFE. -/
theorem test_torque_off :
    queued (exec (.torqueOff 0xFE) (at_ .check)) =
      some ([0xFF, 0xFF, 0xFE, 0x04, 0x03, 0x18, 0x00, 0xE2], .tx) := by decide +kernel

/-- 3.7: TORQUE_OFF 0xFE expects no response. -/
theorem test_torque_off_broadcast_ends :
    resultOf (exec (.torqueOff 0xFE) (at_ .tx)) = some ({}, .result) := by decide +kernel

/-- 3.7: SET_POSITION 1, 0xFF00. -/
theorem test_set_position :
    queued (exec (.setPosition 1 0xFF00) (at_ .check)) =
      some ([0xFF, 0xFF, 0x01, 0x05, 0x03, 0x1E, 0x00, 0xFF, 0xD9], .tx) := by decide +kernel

/-- 3.6: READ_POSITION 1 emits READ_REG's frame. -/
theorem test_read_position :
    queued (exec (.readPosition 1) (at_ .check)) =
      some ([0xFF, 0xFF, 0x01, 0x04, 0x02, 0x24, 0x02, 0xD2], .tx) := by decide +kernel

/-- 3.10: FLUSH_TX with `txq` empty. -/
theorem test_flush_tx : resultOf (exec .flushTx (at_ .tx)) = some ({}, .result) := by decide +kernel

/-- 3.10: the reserved ops and their codes. -/
theorem test_reserved :
    resultOf (exec .reserved0 (at_ .check)) = some (failure .illegalCommand { code := 0x00 }, .result) ∧
      resultOf (exec .reservedD (at_ .check)) = some (failure .illegalCommand { code := 0x0D }, .result) ∧
      resultOf (exec .reservedE (at_ .check)) = some (failure .illegalCommand { code := 0x0E }, .result) ∧
      resultOf (exec .reservedF (at_ .check)) =
        some (failure .illegalCommand { code := 0x0F }, .result) := by decide +kernel

/-- 3.5 to 3.9: the five request frames. -/
theorem test_wire_requests :
    queued (exec (.wirePing 0xFD) (at_ .check)) = some ([0xFF, 0xFF, 0xFD, 0x02, 0x01, 0xFF], .tx) ∧
      queued (exec (.wireRead 1 0x24 2) (at_ .check)) =
        some ([0xFF, 0xFF, 0x01, 0x04, 0x02, 0x24, 0x02, 0xD2], .tx) ∧
      queued (exec (.wireWrite 1 0x1E [0x96, 0x02]) (at_ .check)) =
        some ([0xFF, 0xFF, 0x01, 0x05, 0x03, 0x1E, 0x96, 0x02, 0x40], .tx) ∧
      queued (exec (.wireSyncWrite 0x1E 0 [⟨1, []⟩, ⟨2, []⟩]) (at_ .check)) =
        some ([0xFF, 0xFF, 0xFE, 0x06, 0x83, 0x1E, 0x00, 0x01, 0x02, 0x57], .tx) ∧
      queued (exec (.wireSyncRead []) (at_ .check)) =
        some ([0xFF, 0xFF, 0xFD, 0x02, 0x84, 0x7C], .tx) := by decide +kernel

/-- 3.3: a length byte of 1 under each policy (R110). -/
theorem test_short_length :
    parsed (exec .recv (reading .rlen [0x01])) = some (.fail, .length, { byte := 0x01 }, []) ∧
      parsed (exec .recv { reading .rlen [0x01] with
          cfg := { Config.default with shortLength := .zeroParams } }) =
        some (.rcmd, .ok, {}, []) := by decide +kernel

/-- 3.3: a timeout in RPAR. -/
theorem test_timeout :
    parsed (step (scheduled { reading .rpar [] with pLen := 5 } [.timeout])) =
      some (.fail, .timeout, { state := 6 }, []) := by decide +kernel

/-- 3.10: a reset in mid-decode. -/
theorem test_reset :
    (nextOf (step (scheduled { reading .rcmd [0x00] with pId := 1, pLen := 4, pSum := 5 } [.assertReset]))).map
        (fun t => (t.phase, t.ps, t.rxq, t.pLen, t.pSum)) =
      some (.idle, .idle, [], 0, 0) := by decide +kernel

/-! ## Witnesses: states and operands that meet each statement's hypotheses, clause by clause

A state for a phase is `at_`, one in a decode is `reading`, one after it `decoded` or `undecoded`; 253 and 0xFF are
the two sides of `valid_target`, and MAX_PARAMS is set to the boundary of each budget clause. -/

/-- `s` with a running command. -/
def running (c : HostCmd) (s : State) : State := { s with cur := c }

/-- Phase TX with the request gone, and with one byte of it left. -/
def sending (bytes : List Byte) : State := { at_ .tx with txq := bytes }

/-- A decode about to start over a FIFO that holds these bytes, under RECV, with the steps to read them. -/
def receiving (bytes : List Byte) (steps : Nat) : State :=
  scheduled
    (running { op := 2 }
      { reading .ah1 bytes with cfg := { Config.default with rxFifoDepth := 300 } })
    (List.replicate steps .seq)

/-- An idle machine with one record offered and events to come. -/
def offering (c : HostCmd) (es : List Event) : State :=
  { State.reset with env := { schedule := es, offered := [c] } }

theorem next_with {o : StepOutcome} {p : State → Prop} [DecidablePred p]
    (h : ((nextOf o).any fun t => decide (p t)) = true) : ∃ t, o = .next t ∧ p t := by
  cases o with
  | next t => exact ⟨t, rfl, of_decide_eq_true h⟩
  | fault f => cases h
  | refused r => cases h

theorem witness_DecodeReadsEveryEncoding :
    (Instr.send 1 3 (List.replicate 253 0)).wellFormed Config.default = true ∧
      (Instr.wireWrite 1 0 (List.replicate 252 0)).wellFormed Config.default = true ∧
      (Instr.wireRead 1 0 0).wellFormed { Config.default with maxParams := 2 } = true ∧
      (Instr.wireSyncWrite 0x1E 2 [⟨253, [0x0200]⟩]).wellFormed Config.default = true ∧
      (Instr.wireSyncRead [253]).wellFormed { Config.default with maxParams := 1 } = true := by
  decide +kernel

theorem witness_EncodeRestoresEveryDecodedFrame :
    decode Config.default (.frame [0xFF, 0xFF, 0xFE, 0x04, 0x83, 0x1E, 0x02, 0x5A]) =
      .ok (.wireSyncWrite 0x1E 2 []) := rfl

theorem witness_RecordsDecodeByTheirOp : ∀ op : BitVec 4,
    ({ op := op, data := List.replicate 253 0 } : HostCmd).data.length ≤ 253 ∧
      ({ op := op, ids := List.replicate 253 0 } : HostCmd).ids.length ≤ 253 := by
  intro op; simp only [List.length_replicate]; decide

theorem witness_SpecWordsDecode :
    Config.default.opWrite = 0x03 ∧ Config.default.opPing ≠ 0x03 ∧ Config.default.opRead ≠ 0x03 := by decide

theorem witness_FrameBytesStandAtTheirOffsets :
    (List.replicate 253 (0 : Byte)).length ≤ 253 ∧ 252 < (List.replicate 253 (0 : Byte)).length := by
  decide +kernel

theorem witness_StepRunsTheDecodedCommand :
    let s := scheduled (running { op := 3, id := 1 } (at_ .check)) [.seq]
    s.cfg.valid = true ∧ s.env.resetHeld = false ∧ s.env.schedule = .seq :: [] ∧ s.phase ≠ .idle ∧
      s.phase ≠ .result ∧ decode s.cfg (.command s.cur) = .ok (.ping 1) :=
  ⟨by decide +kernel, rfl, rfl, by decide, by decide, rfl⟩

theorem witness_EmptyScheduleHoldsTheState :
    State.reset.cfg.valid = true ∧ State.reset.env.schedule = [] := by decide +kernel

theorem witness_BrokenConfigurationIsRefused :
    { Config.default with idBroadcast := 0xFD }.idBroadcast = Config.default.idController ∧
      { Config.default with idBroadcast := 0xFF }.idBroadcast = 0xFF ∧
      { Config.default with idController := 0xFF }.idController = 0xFF ∧
      253 < { Config.default with maxParams := 254 }.maxParams ∧
      { Config.default with paramBufDepth := 252 }.paramBufDepth < 253 ∧
      { Config.default with rxFifoDepth := 0 }.rxFifoDepth < 1 := by decide

theorem witness_AcceptTakesTheOldestOfferedRecord :
    let s := offering { op := 3 } [.accept]
    let l := offering { op := 1, data := List.replicate 254 0 } [.accept]
    let b := { s with phase := .check }
    let n := scheduled State.reset [.accept]
    (s.cfg.valid = true ∧ s.env.resetHeld = false ∧ s.env.schedule = .accept :: [] ∧ s.phase = .idle ∧
        s.env.offered = { op := 3 } :: [] ∧ ({ op := 3 } : HostCmd).wellFormed = true) ∧
      (l.phase = .idle ∧ l.env.offered = { op := 1, data := List.replicate 254 0 } :: [] ∧
        ({ op := 1, data := List.replicate 254 0 } : HostCmd).wellFormed = false) ∧
      (b.phase ≠ .idle ∧ n.env.offered = [] ∧ n.env.schedule = .accept :: []) := by
  decide +kernel

/-- Hypotheses in CHECK alone: `valid_target` at 253, at each sentinel, and above; the budget at its edge. -/
theorem witness_SendRunsByItsRule :
    ((at_ .check).phase = .check ∧ ¬ targetOk (at_ .check).cfg 0xFF) ∧
      (targetOk (smallBudget 252).cfg 253 ∧
        (smallBudget 252).cfg.maxParams < (List.replicate 253 (0 : Byte)).length) ∧
      (targetOk (at_ .check).cfg 0xFE ∧ targetOk (at_ .check).cfg 0xFD ∧
        (List.replicate 253 (0 : Byte)).length ≤ (at_ .check).cfg.maxParams) ∧
      ((sending [1]).phase = .tx ∧ (sending [1]).txq ≠ [] ∧ (sending []).txq = []) := by
  decide +kernel

theorem witness_RecvRunsByItsRule :
    (at_ .check).phase = .check ∧
      ((decoded 0 [1]).phase = .interp ∧ (decoded 0 [1]).ps = .done ∧
        (decoded 0 [1]).pN ≤ (decoded 0 [1]).pBuf.length) ∧
      ((undecoded .framing {}).phase = .interp ∧ (undecoded .framing {}).ps = .fail) := by
  decide +kernel

theorem witness_PingRunsByItsRule :
    ((at_ .check).phase = .check ∧ ¬ targetOk (at_ .check).cfg 0xFF) ∧
      (targetOk (at_ .check).cfg 0xFE ∧ (0xFE : Byte) = (at_ .check).cfg.idBroadcast) ∧
      (targetOk (at_ .check).cfg 253 ∧ (253 : Byte) ≠ (at_ .check).cfg.idBroadcast) ∧
      ((sending []).phase = .tx ∧ (sending []).txq = [] ∧ (sending [1]).txq ≠ []) ∧
      ((decoded 0 []).phase = .interp ∧ (decoded 0 []).ps = .done ∧
        (decoded 0 []).pCmd = (decoded 0 []).cfg.noError ∧ (decoded 1 []).pCmd ≠ (decoded 1 []).cfg.noError) ∧
      ((undecoded .timeout {}).phase = .interp ∧ (undecoded .timeout {}).ps = .fail) := by
  decide +kernel

theorem witness_ReadRegRunsByItsRule :
    ((at_ .check).phase = .check ∧ ¬ targetOk (at_ .check).cfg 0xFF ∧ targetOk (at_ .check).cfg 0xFE ∧
        (0xFE : Byte) = (at_ .check).cfg.idBroadcast) ∧
      ((sending []).phase = .tx ∧ (sending []).txq = [] ∧ (sending [1]).txq ≠ []) ∧
      ((undecoded .timeout {}).phase = .interp ∧ (undecoded .timeout {}).ps = .fail ∧
        (decoded 0 []).phase = .interp) ∧
    (targetOk (smallBudget 1).cfg 0 ∧ (0 : Byte) ≠ (smallBudget 1).cfg.idBroadcast ∧
        (smallBudget 1).cfg.maxParams < 2 ∧ (smallBudget 1).phase = .check) ∧
      (targetOk (smallBudget 2).cfg 0 ∧ 2 ≤ (smallBudget 2).cfg.maxParams ∧ (smallBudget 2).phase = .check) ∧
      ((decoded 0 []).ps = .done ∧ (decoded 0 []).pN = 0) ∧
      ((decoded 0 [5]).pN = 1 ∧ (decoded 0 [5]).pBuf[0]? = some 5) ∧
      ((decoded 0 [5, 6]).pN = 2 ∧ (decoded 0 [5, 6]).pBuf[0]? = some 5 ∧
        (decoded 0 [5, 6]).pBuf[1]? = some 6) ∧
      (3 ≤ (decoded 0 [5, 6, 7]).pN ∧ (decoded 0 [5, 6, 7]).pN ≤ (decoded 0 [5, 6, 7]).pBuf.length) := by
  decide +kernel

theorem witness_WriteRegRunsByItsRule :
    ((at_ .check).phase = .check ∧ ¬ targetOk (at_ .check).cfg 0xFF) ∧
      ((sending []).phase = .tx ∧ (sending []).txq = [] ∧ (sending [1]).txq ≠ []) ∧
      ((decoded 0 []).phase = .interp ∧ (decoded 0 []).ps = .done ∧
        (decoded 0 []).pCmd = (decoded 0 []).cfg.noError ∧ (decoded 1 []).pCmd ≠ (decoded 1 []).cfg.noError) ∧
      ((undecoded .timeout {}).phase = .interp ∧ (undecoded .timeout {}).ps = .fail) ∧
    (targetOk (smallBudget 1).cfg 253 ∧ (smallBudget 1).cfg.maxParams < 1 + [(0 : Byte)].length ∧
        (smallBudget 1).phase = .check) ∧
      (targetOk (smallBudget 2).cfg 0xFE ∧ 1 + [(0 : Byte)].length ≤ (smallBudget 2).cfg.maxParams) ∧
      (decide ((1 : Byte) ≠ (sending []).cfg.idBroadcast) = true ∧
        decide ((0xFE : Byte) ≠ (sending []).cfg.idBroadcast) = false) := by
  decide +kernel

theorem witness_SyncWriteRunsByItsRule :
    ((at_ .check).phase = .check ∧ ∃ e ∈ [Entry.mk 254 [0]], 253 < e.eid.toNat) ∧
      ((∀ e ∈ [Entry.mk 253 [0]], e.eid.toNat ≤ 253) ∧
        ∃ e ∈ [Entry.mk 253 [0]], 2 * e.vals.length ≠ (3 : Byte).toNat) ∧
      ((∀ e ∈ [Entry.mk 253 [0]], 2 * e.vals.length = (2 : Byte).toNat) ∧
        (smallBudget 4).cfg.maxParams < 2 + ([Entry.mk 253 [0]].map fun e => 1 + 2 * e.vals.length).sum ∧
        2 + ([Entry.mk 253 [0]].map fun e => 1 + 2 * e.vals.length).sum ≤ (smallBudget 5).cfg.maxParams) ∧
      ((sending []).phase = .tx ∧ (sending []).txq = [] ∧ (sending [1]).txq ≠ []) := by
  decide +kernel

theorem witness_SyncReadRequestsByItsRule :
    ((at_ .check).phase = .check ∧ ∃ i ∈ [(254 : Byte)], 253 < i.toNat) ∧
      ((∀ i ∈ [(253 : Byte)], i.toNat ≤ 253) ∧
        (1 : Byte).toNat < (at_ .check).cfg.syncReadPosOffset.toNat + 2 ∧
        (at_ .check).cfg.syncReadPosOffset.toNat + 2 ≤ (2 : Byte).toNat) ∧
      ((smallBudget 0).cfg.maxParams < [(253 : Byte)].length ∧
        [(253 : Byte)].length ≤ (smallBudget 1).cfg.maxParams) ∧
      ((sending []).phase = .tx ∧ (sending []).txq = [] ∧ (sending [1]).txq ≠ []) ∧
      ((undecoded .length {}).phase = .interp ∧ (undecoded .length {}).ps = .fail) := by
  decide +kernel

/-- No parameter, three, four (no group), and one group of width 2 for one ID; and one of each failing test. -/
theorem witness_SyncReadInterpretsByItsRule :
    let d (ps : List Byte) := decoded 0 ps
    ((d []).phase = .interp ∧ (d []).ps = .done ∧
        (d []).cfg.syncReadPosOffset.toNat + 2 ≤ (2 : Byte).toNat ∧ (d []).pN ≤ 253 ∧
        (d []).pN ≤ (d []).pBuf.length) ∧
      ((decoded 1 []).pCmd ≠ (decoded 1 []).cfg.noError ∧ (d []).pCmd = (d []).cfg.noError) ∧
      ((d [1, 2, 3]).pN < 4 ∧ ((d [1, 2, 3, 4, 5]).pN - 4) % (2 : Byte).toNat ≠ 0 ∧
        ((d [1, 2, 3, 4, 5, 6]).pN - 4) / (2 : Byte).toNat ≠ ([] : List Byte).length) ∧
      (4 ≤ (d [1, 2, 3, 4]).pN ∧ ((d [1, 2, 3, 4]).pN - 4) % (2 : Byte).toNat = 0 ∧
        ((d [1, 2, 3, 4]).pN - 4) / (2 : Byte).toNat = ([] : List Byte).length) ∧
      (((d [1, 2, 3, 4, 5, 6]).pN - 4) % (2 : Byte).toNat = 0 ∧
        ((d [1, 2, 3, 4, 5, 6]).pN - 4) / (2 : Byte).toNat = [(1 : Byte)].length) := by
  decide +kernel

theorem witness_FlushTxRunsByItsRule :
    (at_ .check).phase = .check ∧ (sending []).phase = .tx ∧ (sending []).txq = [] ∧
      (sending [1]).txq ≠ [] := by decide +kernel

theorem witness_PseudoOperationsQueueTheirFramesAndFinish :
    (targetOk (smallBudget 3).cfg 0xFE ∧ (decoded 0 []).pCmd = (decoded 0 []).cfg.noError ∧
        (decoded 1 []).pCmd ≠ (decoded 1 []).cfg.noError ∧ (decoded 0 [5]).pN = 1) ∧
    ((smallBudget 3).phase = .check ∧ targetOk (smallBudget 3).cfg 253 ∧ 3 ≤ (smallBudget 3).cfg.maxParams ∧
        (253 : Byte) ≠ (smallBudget 3).cfg.idBroadcast) ∧
      ((decoded 0 []).phase = .interp ∧ (decoded 0 []).ps = .done) := by decide +kernel

theorem witness_ReservedOpsFinishIllegal : (at_ .check).phase = .check := rfl

theorem witness_WireRequestsQueueTheirFrames :
    (at_ .check).phase = .check ∧ (at_ .tx).phase ≠ .check ∧ 2 ≤ (smallBudget 2).cfg.maxParams ∧
      (smallBudget 1).cfg.maxParams < 2 ∧ 1 + [(0 : Byte)].length ≤ (smallBudget 2).cfg.maxParams ∧
      2 + ([Entry.mk 253 [0]].map fun e => 1 + 2 * e.vals.length).sum ≤ (smallBudget 5).cfg.maxParams ∧
      [(253 : Byte)].length ≤ (smallBudget 1).cfg.maxParams ∧
      (smallBudget 1).phase = .check ∧ (smallBudget 1).cfg.maxParams < 1 + [(0 : Byte)].length ∧
      (smallBudget 4).cfg.maxParams < 2 + ([Entry.mk 253 [0]].map fun e => 1 + 2 * e.vals.length).sum ∧
      (smallBudget 0).cfg.maxParams < [(253 : Byte)].length := by decide +kernel

theorem witness_PassingChecksEmitTheWireRequest :
    (at_ .check).phase = .check ∧ targetOk (at_ .check).cfg 253 ∧
      (253 : Byte) ≠ (at_ .check).cfg.idBroadcast ∧
      ((∀ e ∈ [Entry.mk 253 [0]], e.eid.toNat ≤ 253) ∧
        ∀ e ∈ [Entry.mk 253 [0]], 2 * e.vals.length = (2 : Byte).toNat) ∧
      ((∀ i ∈ [(253 : Byte)], i.toNat ≤ 253) ∧
        (at_ .check).cfg.syncReadPosOffset.toNat + 2 ≤ (2 : Byte).toNat) := by decide +kernel

theorem witness_EveryCommandDrainsBeforeItGoesOn :
    responseExpected (sending []).cfg (.ping 1) = some true ∧
      responseExpected (sending []).cfg (.torqueOn 0xFE) = some false ∧ (sending []).phase = .tx ∧
      (sending []).txq = [] ∧ (sending [1]).txq ≠ [] := by decide +kernel

/-- Each row's state, and the byte or length at its edge. -/
theorem witness_ParserFollowsItsTable :
    let r (q : PState) := reading q [0xFF]
    (responseExpected (r .ah1).cfg .recv ≠ none ∧ (r .ah1).phase = .rx ∧ (r .ah1).rxq = 0xFF :: []) ∧
      ((r .ah1).ps = .ah1 ∧ (r .ah2).ps = .ah2 ∧ (0xFE : Byte) ≠ 0xFF ∧ (r .rid).ps = .rid) ∧
      ((r .rlen).ps = .rlen ∧ 2 ≤ (2 : Byte).toNat ∧ (1 : Byte).toNat < 2 ∧
        (r .rlen).cfg.shortLength = .abort) ∧
      ((r .rcmd).ps = .rcmd ∧ { r .rcmd with pLen := 2 }.pLen.toNat ≤ 2 ∧
        2 < { r .rcmd with pLen := 3 }.pLen.toNat) ∧
      ((r .rpar).ps = .rpar ∧ (r .rpar).pN < (r .rpar).pBuf.length ∧
        (r .rpar).pN + 1 = { r .rpar with pLen := 3 }.pLen.toNat - 2 ∧
        (r .rpar).pN + 1 ≠ { r .rpar with pLen := 4 }.pLen.toNat - 2) ∧
      ((r .rchk).ps = .rchk ∧ (r .rchk).pSum + 0xFF = 0xFF ∧ (r .rchk).pSum + 0xFE ≠ 0xFF ∧
        2 ≤ { r .rchk with pLen := 2 }.pLen.toNat ∧ { r .rchk with pLen := 1 }.pLen.toNat < 2) := by
  decide +kernel

theorem witness_DecodeWaitsForBytesAndEndsInInterp :
    (responseExpected (reading .rid []).cfg .recv ≠ none ∧ (reading .rid []).phase = .rx ∧
        isReadState (reading .rid []).ps = true ∧ (reading .rid []).rxq = []) ∧
      (reading .done [1]).ps = .done ∧ (reading .fail []).ps = .fail := by decide +kernel

theorem witness_TimeoutFiresOnlyWhileArmed :
    let s := scheduled (reading .rid []) [.timeout]
    let u := scheduled (reading .rid [1]) [.timeout]
    (s.cfg.valid = true ∧ s.env.resetHeld = false ∧ s.env.schedule = .timeout :: [] ∧ s.tArmed = true) ∧
      (u.env.schedule = .timeout :: [] ∧ u.tArmed = false) := by decide +kernel

theorem witness_FailedDecodePropagates :
    responseExpected (undecoded .checksum {}).cfg (.readPosition 1) ≠ none ∧
      (undecoded .checksum {}).phase = .interp ∧ (undecoded .checksum {}).ps = .fail := by decide +kernel

theorem witness_NothingRunsInIdleOrResult : (at_ .idle).phase = .idle ∧ (at_ .result).phase = .result := ⟨rfl, rfl⟩

theorem witness_InstructionsLeaveTheRestAlone :
    (∃ t, exec .recv { reading .rpar [7] with pLen := 4 } = .next t ∧
        (t.phase ≠ .result ∧ (1 : Nat) ≠ (reading .rpar [7]).pN)) ∧
      ∃ t, exec (.ping 1) (at_ .check) = .next t ∧ ((at_ .check).phase ≠ .rx ∧ t.phase ≠ .rx) :=
  ⟨next_with (by decide +kernel), next_with (by decide +kernel)⟩

theorem witness_ImpossibleStepsFault :
    ((at_ .tx).phase = .tx ∧ (at_ .rx).phase = .rx ∧ (at_ .interp).phase = .interp) ∧
      (responseExpected (at_ .rx).cfg .recv ≠ none ∧ (at_ .rx).ps = .idle) ∧
      ((at_ .interp).ps ≠ .done ∧ (at_ .interp).ps ≠ .fail) ∧
      ((decoded 0 []).phase = .interp ∧ (decoded 0 []).ps = .done) ∧
      ((reading .rpar [1]).rxq ≠ [] ∧
        { reading .rpar [1] with pBuf := [] }.pBuf.length ≤ { reading .rpar [1] with pBuf := [] }.pN) ∧
      { decoded 0 [] with pN := 254 }.pBuf.length < { decoded 0 [] with pN := 254 }.pN := by decide +kernel

theorem witness_SendTakesTheOldestByte :
    let s := scheduled (sending [1]) [.send]
    s.cfg.valid = true ∧ s.env.resetHeld = false ∧ s.env.schedule = .send :: [] ∧ s.txq = 1 :: [] ∧
      (scheduled (sending []) [.send]).txq = [] := by decide +kernel

/-- One byte below the depth, and at it. -/
theorem witness_ArrivingByteIsKeptOrLost :
    let s (n : Nat) := scheduled { State.reset with rxq := List.replicate n 0 } [.arrive 7]
    (s 63).cfg.valid = true ∧ (s 63).env.resetHeld = false ∧ (s 63).env.schedule = .arrive 7 :: [] ∧
      (s 63).rxq.length < (s 63).cfg.rxFifoDepth ∧ (s 64).cfg.rxFifoDepth ≤ (s 64).rxq.length := by
  decide +kernel

theorem witness_TakenResultFreesTheSequencer :
    let s (p : Phase) := scheduled (at_ p) [.take]
    (s .result).cfg.valid = true ∧ (s .result).env.resetHeld = false ∧
      (s .result).env.schedule = .take :: [] ∧ (s .result).phase = .result ∧ (s .idle).phase ≠ .result := by
  decide +kernel

theorem witness_ResetGivesEveryElementItsValue :
    let s := scheduled (reading .rlen [1]) [.assertReset]
    ∃ t, step s = .next t ∧ (s.cfg.valid = true ∧ s.env.schedule = .assertReset :: []) :=
  next_with (by decide +kernel)

theorem witness_HeldResetBlocksEveryOtherEvent :
    let s : State := { State.reset with env := { schedule := [.arrive 1], resetHeld := true } }
    s.cfg.valid = true ∧ s.env.schedule = .arrive 1 :: [] ∧ s.env.resetHeld = true ∧
      Event.arrive 1 ≠ .assertReset ∧ Event.arrive 1 ≠ .releaseReset ∧ ∀ c, Event.arrive 1 ≠ .offer c :=
  ⟨by decide +kernel, rfl, rfl, by decide, by decide, fun _ h => by cases h⟩

theorem witness_ConfigurationNeverChanges :
    ∃ t, step (scheduled State.reset [.arrive 1]) = .next t ∧ t.rxq = [1] := next_with (by decide +kernel)

theorem witness_CurIsWrittenOnlyOnAcceptance :
    ∃ t, step (offering { op := 3 } [.accept]) = .next t ∧ t.cur ≠ (offering { op := 3 } [.accept]).cur :=
  next_with (by decide +kernel)

theorem witness_PhaseMovesOnlyAsTheSequencerSays :
    ∃ t, step (scheduled (running { op := 3 } (at_ .check)) [.seq]) = .next t ∧ t.phase ≠ .check :=
  next_with (by decide +kernel)

theorem witness_RxqIsFirstInFirstOut :
    ∃ t, step (scheduled (running { op := 2 } (reading .ah1 [0xFF, 0x01])) [.seq]) = .next t ∧ t.rxq = [0x01] :=
  next_with (by decide +kernel)

theorem witness_TxqIsFirstInFirstOut :
    ∃ t, step (scheduled (sending [1, 2]) [.send]) = .next t ∧ t.txq = [2] := next_with (by decide +kernel)

theorem witness_OverrunIsStickyUntilReset :
    let s := scheduled { State.reset with cfg := { Config.default with rxFifoDepth := 1 }, rxq := [1] } [.arrive 7]
    ∃ t, step s = .next t ∧ t.rxOverrun ≠ s.rxOverrun :=
  next_with (by decide +kernel)

theorem witness_ResultWaitsUntilTaken :
    let s := scheduled (at_ .result) [.arrive 1]
    (∃ t, step s = .next t ∧ s.phase = .result) ∧ (∀ rest, s.env.schedule ≠ .take :: rest) ∧
      ∀ rest, s.env.schedule ≠ .assertReset :: rest :=
  ⟨next_with (by decide +kernel), fun _ => by simp [scheduled], fun _ => by simp [scheduled]⟩

theorem witness_ResultsAreOkOrEmpty :
    let s := scheduled (running { op := 2 } (decoded 0 [1])) [.seq]
    let f := scheduled (running { op := 2 } (undecoded .framing { state := 1 })) [.seq]
    (∃ t, step s = .next t ∧ (invariant s = true ∧ s.phase ≠ .result ∧ t.phase = .result ∧
        t.res.status = .ok)) ∧
      ∃ t, step f = .next t ∧ (invariant f = true ∧ f.phase ≠ .result ∧ t.phase = .result ∧
        t.res.status ≠ .ok) :=
  ⟨next_with (by decide +kernel), next_with (by decide +kernel)⟩

theorem witness_StepKeepsTheInvariant :
    let s := scheduled (running { op := 2 } (reading .ah1 [0xFF])) [.seq]
    ∃ t, step s = .next t ∧ (invariant s = true ∧ t.ps = .ah2) := next_with (by decide +kernel)

theorem witness_NoRunFaultsOrIsRefused :
    let s := offering { op := 7, ids := [1], width := 2 } [.offer { op := 2 }, .accept, .seq]
    invariant s = true ∧ hostFits s.env = true := by decide +kernel

theorem witness_NoInvalidPacketIsDelivered :
    let s := scheduled (running { op := 2 } (decoded 0 [1])) [.seq]
    ∃ t, step s = .next t ∧ (invariant s = true ∧ s.phase ≠ .result ∧ t.phase = .result ∧
      t.res.payload ≠ .none) :=
  next_with (by decide +kernel)

/-- A frame of no parameter with a byte after it, and the longest frame. -/
theorem witness_DecodeRecoversEveryEncodedFrame :
    let s := receiving (encodeFrame 1 0 [] ++ [7]) 6
    let l := receiving (encodeFrame 1 0 (List.replicate 253 9)) 259
    (invariant s = true ∧ s.phase = .rx ∧ s.ps = .ah1 ∧ s.env.resetHeld = false ∧
        ([] : List Byte).length ≤ 253 ∧ s.rxq = encodeFrame 1 0 [] ++ [7] ∧
        s.env.schedule = List.replicate (([] : List Byte).length + 6) .seq) ∧
      (invariant l = true ∧ (List.replicate 253 (9 : Byte)).length ≤ 253 ∧
        l.rxq = encodeFrame 1 0 (List.replicate 253 9) ++ [] ∧
        l.env.schedule = List.replicate ((List.replicate 253 (9 : Byte)).length + 6) .seq) := by
  decide +kernel

/-- The first and last byte of each clause: offsets 0 and 1; 2, 4, and the checksum at 6. -/
theorem witness_OneChangedByteIsDetected :
    let s (o : Nat) := receiving ((encodeFrame 1 0 [5]).set o 0x77) 7
    (invariant (s 0) = true ∧ (s 0).phase = .rx ∧ (s 0).ps = .ah1 ∧ (s 0).env.resetHeld = false ∧
        (s 0).env.schedule = List.replicate ([(5 : Byte)].length + 6) .seq) ∧
      ∀ o ∈ [0, 1, 2, 4, 6], o < [(5 : Byte)].length + 6 ∧ (encodeFrame 1 0 [5])[o]? ≠ some 0x77 ∧
        invariant (s o) = true ∧ (s o).rxq = (encodeFrame 1 0 [5]).set o 0x77 := by
  decide +kernel

theorem witness_PingExchangeReportsTheDevice :
    let s := offering { op := 0x3, id := 253 } (exchange 6 (encodeFrame 1 0x20 []))
    quiet s ∧ targetOk s.cfg 253 ∧ (253 : Byte) ≠ s.cfg.idBroadcast ∧ ([] : List Byte).length ≤ 253 ∧
      s.env.offered = [{ op := 0x3, id := 253 }] ∧
      s.env.schedule = exchange 6 (encodeFrame 1 0x20 []) := by decide +kernel

theorem witness_ReadRegExchangeReturnsTheValue :
    let s := offering { op := 0x4, id := 1, addr := 0x24, count := 2 } (exchange 8 (encodeFrame 1 0 [0x34, 0x01]))
    quiet s ∧ targetOk s.cfg 1 ∧ (1 : Byte) ≠ s.cfg.idBroadcast ∧ 2 ≤ s.cfg.maxParams ∧
      [(0x34 : Byte), 0x01].length ≤ 253 ∧
      s.env.offered = [{ op := 0x4, id := 1, addr := 0x24, count := 2 }] ∧
      s.env.schedule = exchange 8 (encodeFrame 1 0 [0x34, 0x01]) := by decide +kernel

theorem witness_DecodeEndsWithinTheLongestFrame :
    let s := receiving (List.replicate 259 0xFF) 261
    invariant s = true ∧ s.phase = .rx ∧ s.env.resetHeld = false ∧ 259 ≤ s.rxq.length ∧
      s.env.schedule = List.replicate 261 .seq := by decide +kernel

theorem witness_UnreadStateMattersToNoStep :
    let s := scheduled State.reset [.arrive 1]
    let u := { s with cur := { op := 3 }, res := { overrun := true }, pBuf := List.replicate 253 1 }
    invariant s = true ∧ invariant u = true ∧ readPart s = readPart u ∧ s ≠ u := by decide +kernel

end Sys2Proof.Tests
end

section
/-! The constraints of 00_scope.md R7 as propositions, and the refusal of a configuration that breaks one. -/

namespace Sys2Proof

/-- The six constraints of R7's last paragraph, in its order. -/
theorem Config.valid_iff (c : Config) :
    c.valid = true ↔
      c.idBroadcast ≠ c.idController ∧ c.idBroadcast ≠ 0xFF ∧ c.idController ≠ 0xFF ∧
        c.maxParams ≤ 253 ∧ 253 ≤ c.paramBufDepth ∧ 1 ≤ c.rxFifoDepth := by
  simp only [Config.valid, Bool.and_eq_true, decide_eq_true_eq, and_assoc]

/-- A configuration that breaks any one of the constraints is not valid. -/
theorem Config.not_valid_of_broken {c : Config}
    (hc : c.idBroadcast = c.idController ∨ c.idBroadcast = 0xFF ∨ c.idController = 0xFF ∨
      253 < c.maxParams ∨ c.paramBufDepth < 253 ∨ c.rxFifoDepth < 1) :
    ¬ c.valid = true := by
  rw [Config.valid_iff]
  rintro ⟨hbc, hb, hctl, hmax, hbuf, hfifo⟩
  rcases hc with h | h | h | h | h | h
  · exact hbc h
  · exact hb h
  · exact hctl h
  · exact absurd hmax (Nat.not_le_of_lt h)
  · exact absurd hbuf (Nat.not_le_of_lt h)
  · exact absurd hfifo (Nat.not_le_of_lt h)

namespace Machine

/-- The configuration is checked before the schedule is read: nothing else of the state decides the refusal
(60_exceptions.md R216(a)). -/
theorem step_of_not_valid {s : State} (hv : ¬ s.cfg.valid = true) : step s = .refused .badConfig :=
  if_neg hv

/-- Settles O11: each broken constraint makes `Config.valid` fail, and the step tests that first. -/
theorem brokenConfigurationIsRefused : Obligations.BrokenConfigurationIsRefused :=
  fun _ hc => step_of_not_valid (Config.not_valid_of_broken hc)

end Machine

end Sys2Proof
end

section
/-! The events, one rule each: what the next event of the schedule does when reset is not held (00_scope.md
R11), and the statements about single events. -/

namespace Sys2Proof.Machine

/-- With no event scheduled the step holds the state. -/
theorem step_of_empty {s : State} (hv : s.cfg.valid = true) (hs : s.env.schedule = []) : step s = .next s := by
  unfold step stepEvent
  rw [if_pos hv, hs]

section NotHeld

variable {s : State} {rest : List Event}

/-- The state with the first event taken from the schedule. -/
abbrev scheduleTaken (s : State) (rest : List Event) : State :=
  { s with env := { s.env with schedule := rest } }

/-- With reset not held, the scheduled `accept` is the acceptance. -/
theorem step_accept (hv : s.cfg.valid = true) (hr : s.env.resetHeld = false)
    (hs : s.env.schedule = .accept :: rest) : step s = acceptEvent (scheduleTaken s rest) :=
  (step_of_event hv hs).trans (if_neg (by simp [hr]))

/-- With reset not held, the scheduled `take` takes the result. -/
theorem step_take (hv : s.cfg.valid = true) (hr : s.env.resetHeld = false)
    (hs : s.env.schedule = .take :: rest) : step s = .next (takeEvent (scheduleTaken s rest)) :=
  (step_of_event hv hs).trans (congrArg Host.Outcome.next (if_neg (by simp [hr])))

/-- With reset not held, the scheduled `send` takes a byte of `txq`. -/
theorem step_send (hv : s.cfg.valid = true) (hr : s.env.resetHeld = false)
    (hs : s.env.schedule = .send :: rest) : step s = .next (sendEvent (scheduleTaken s rest)) :=
  (step_of_event hv hs).trans (congrArg Host.Outcome.next (if_neg (by simp [hr])))

/-- With reset not held, the scheduled byte arrives. -/
theorem step_arrive {b : Byte} (hv : s.cfg.valid = true) (hr : s.env.resetHeld = false)
    (hs : s.env.schedule = .arrive b :: rest) :
    step s = .next (arriveEvent b (scheduleTaken s rest)) :=
  (step_of_event hv hs).trans (congrArg Host.Outcome.next (if_neg (by simp [hr])))

/-- With reset not held, the scheduled timeout is tried. -/
theorem step_timeout (hv : s.cfg.valid = true) (hr : s.env.resetHeld = false)
    (hs : s.env.schedule = .timeout :: rest) :
    step s = .next (timeoutEvent (scheduleTaken s rest)) :=
  (step_of_event hv hs).trans (congrArg Host.Outcome.next (if_neg (by simp [hr])))

/-- With reset not held, the scheduled `seq` is DXPC's own next step. -/
theorem step_seq (hv : s.cfg.valid = true) (hr : s.env.resetHeld = false)
    (hs : s.env.schedule = .seq :: rest) : step s = sequencerEvent (scheduleTaken s rest) :=
  (step_of_event hv hs).trans (if_neg (by simp [hr]))

end NotHeld

/-- In a phase with a command running, the sequencer runs what `cur` decodes to. -/
theorem sequencerEvent_running {s : State} {i : Instr} (hi : s.phase ≠ .idle) (hr : s.phase ≠ .result)
    (hf : fetch s = .ok i) : sequencerEvent s = exec i s := by
  unfold sequencerEvent
  split
  case h_1 h => exact absurd h hi
  case h_2 h => exact absurd h hr
  case h_3 => rw [hf]

/-- Settles O9: the event is `seq`, and out of IDLE and RESULT that is the fetched command's step. -/
theorem stepRunsTheDecodedCommand : Obligations.StepRunsTheDecodedCommand := by
  intro s i rest hv hheld hs hidle hresult hdec
  rw [step_seq hv hheld hs]
  exact sequencerEvent_running hidle hresult hdec

/-! ## Acceptance -/

/-- In IDLE the oldest offered record is accepted if it is one of R83. -/
theorem acceptEvent_idle {s : State} {c : HostCmd} {cs : List HostCmd} (hp : s.phase = .idle)
    (ho : s.env.offered = c :: cs) :
    acceptEvent s =
      if c.wellFormed then
        .next { s with cur := c, phase := .check, env := { s.env with offered := cs } }
      else .refused .illFormedRecord := by
  unfold acceptEvent
  rw [hp, ho]

/-- With a command running, or none offered, nothing is accepted. -/
theorem acceptEvent_hold {s : State} (h : s.phase ≠ .idle ∨ s.env.offered = []) :
    acceptEvent s = .next s := by
  unfold acceptEvent
  split
  case h_1 hp ho =>
    rcases h with h | h
    · exact absurd hp h
    · rw [h] at ho; cases ho
  case h_2 => rfl

/-- Settles O12: the three clauses are the acceptance's own cases, on the state with the event taken. -/
theorem acceptTakesTheOldestOfferedRecord : Obligations.AcceptTakesTheOldestOfferedRecord := by
  intro s rest hv hheld hs
  rw [step_accept hv hheld hs]
  refine ⟨fun c cs hp ho hw => ?_, fun c cs hp ho hw => ?_, fun h => acceptEvent_hold h⟩
  · exact (acceptEvent_idle (s := scheduleTaken s rest) hp ho).trans (if_pos hw)
  · exact (acceptEvent_idle (s := scheduleTaken s rest) hp ho).trans (if_neg (by simp [hw]))

/-! ## The ports and the timer -/

/-- Settles O30: the timeout event's test of `t_armed`, and the decode it fails. -/
theorem timeoutFiresOnlyWhileArmed : Obligations.TimeoutFiresOnlyWhileArmed := by
  intro s rest hv hheld hs
  rw [step_timeout hv hheld hs]
  unfold timeoutEvent
  constructor
  · intro ha
    rw [if_pos ha]
    rfl
  · intro ha
    rw [if_neg (by simp [ha])]

/-- The TX port takes the oldest byte of `txq`. -/
theorem sendEvent_of_cons {s : State} {b : Byte} {bs : List Byte} (h : s.txq = b :: bs) :
    sendEvent s = { s with txq := bs, env := { s.env with sent := s.env.sent ++ [b] } } := by
  unfold sendEvent
  simp only [h]

/-- With `txq` empty the TX port takes nothing. -/
theorem sendEvent_of_empty {s : State} (h : s.txq = []) : sendEvent s = s := by
  unfold sendEvent
  split
  case h_1 => rfl
  case h_2 hq => rw [h] at hq; cases hq

/-- Settles O36: the two cases of the TX-port event, on the state with the event taken. -/
theorem sendTakesTheOldestByte : Obligations.SendTakesTheOldestByte := by
  intro s rest hv hheld hs
  rw [step_send hv hheld hs]
  exact ⟨fun b bs hq => congrArg _ (sendEvent_of_cons (s := scheduleTaken s rest) hq),
    fun hq => congrArg _ (sendEvent_of_empty (s := scheduleTaken s rest) hq)⟩

/-- A byte just queued leaves the timer unarmed, in every parser state. -/
theorem timerArmed_append (q : PState) (bs : List Byte) (b : Byte) : timerArmed q (bs ++ [b]) = false := by
  simp [timerArmed]

/-- Settles O37: the arrival's test of the room in `rxq`; the byte kept leaves the timer unarmed. -/
theorem arrivingByteIsKeptOrLost : Obligations.ArrivingByteIsKeptOrLost := by
  intro s b rest hv hheld hs
  rw [step_arrive hv hheld hs]
  unfold arriveEvent
  constructor
  · intro room
    rw [if_pos room, rearm, timerArmed_append]
  · intro full
    rw [if_neg (Nat.not_lt_of_le full)]

/-- Settles O38: the result-port event's test of the phase. -/
theorem takenResultFreesTheSequencer : Obligations.TakenResultFreesTheSequencer := by
  intro s rest hv hheld hs
  rw [step_take hv hheld hs]
  unfold takeEvent
  constructor
  · intro hp
    rw [if_pos hp]
  · intro hp
    rw [if_neg hp]

/-! ## Reset and the codes -/

/-- Settles O39: the state a step leaves after reset is asserted is `State.atReset`, as State.reset is. -/
theorem resetGivesEveryElementItsValue : Obligations.ResetGivesEveryElementItsValue := by
  intro s t rest h
  have reset_values : ∃ c e, t = State.atReset c e := by
    rcases h with rfl | ⟨hv, hs, hstep⟩
    · exact ⟨_, _, rfl⟩
    · rw [step_of_event hv hs] at hstep
      cases hstep
      exact ⟨_, _, rfl⟩
  obtain ⟨c, e, rfl⟩ := reset_values
  simp

/-- Only IDLE has the phase code 0. -/
theorem phaseCode_eq_zero (p : Phase) : phaseCode p = 0 ↔ p = .idle := by
  cases p <;> decide

/-- Settles O35: each list of codes is computed, and `busy` and `cmd_ready` test the one phase whose code is 0. -/
theorem codesAreThoseOfTheTables : Obligations.CodesAreThoseOfTheTables := by
  refine ⟨rfl, rfl, rfl, rfl, fun _ _ _ _ _ _ _ _ => rfl, fun s => ?_⟩
  simp only [busy, cmdReady, ne_eq, phaseCode_eq_zero, and_self]

end Sys2Proof.Machine
end

section
/-! Everything an instruction can do to a state, in one relation, and what that leaves unchanged. -/

namespace Sys2Proof.Machine

/-! ## Plans whose checks pass -/

theorem checkBudget_eq_none {c : Config} {ps : List Byte} :
    checkBudget c ps = none ↔ ps.length ≤ c.maxParams := by
  simp [checkBudget]

/-- Once its checks have passed, a plan's request is one frame of at most MAX_PARAMS parameters (R182). -/
def RequestFits (c : Config) (p : Plan) : Prop :=
  p.verdict = none → ∀ f, p.request = some f →
    ∃ id cmd ps, f = encodeFrame id cmd ps ∧ ps.length ≤ c.maxParams

/-- A plan that ends its checks with the budget of the parameters it sends. -/
theorem requestFits_of_budget {c : Config} {p : Plan} {id cmd : Byte} {ps : List Byte}
    (hf : p.request = some (encodeFrame id cmd ps)) (hv : p.verdict = none → checkBudget c ps = none) :
    RequestFits c p := by
  intro hnone f hreq
  rw [hf, Option.some.injEq] at hreq
  exact ⟨id, cmd, ps, hreq.symm, checkBudget_eq_none.1 (hv hnone)⟩

theorem requestFits_planRead (c : Config) (id addr count : Byte) :
    RequestFits c (planRead c id addr count) :=
  requestFits_of_budget rfl fun h => (Option.or_eq_none_iff.1 (Option.or_eq_none_iff.1 h).2).2

theorem requestFits_planWrite (c : Config) (id addr : Byte) (data : List Byte) :
    RequestFits c (planWrite c id addr data) :=
  requestFits_of_budget rfl fun h => (Option.or_eq_none_iff.1 h).2

/-- The request of every command fits, if its checks pass. -/
theorem requestFits_of_planOf {c : Config} {i : Instr} {p : Plan} (h : planOf c i = some p) :
    RequestFits c p := by
  cases i <;> simp only [planOf, Option.some.injEq, reduceCtorEq] at h <;> subst h
  case send => exact requestFits_of_budget rfl fun h => (Option.or_eq_none_iff.1 h).2
  case syncWrite | syncRead =>
    exact requestFits_of_budget rfl fun h => (Option.or_eq_none_iff.1 (Option.or_eq_none_iff.1 h).2).2
  case recv | flushTx => exact fun _ _ hf => by cases hf
  case ping => exact requestFits_of_budget rfl fun _ => checkBudget_eq_none.2 (Nat.zero_le _)
  case readReg | readPosition => exact requestFits_planRead _ _ _ _
  case writeReg | torqueOn | torqueOff | setPosition => exact requestFits_planWrite _ _ _ _

/-! ## The moves -/

/-- Every way an instruction can leave a state, with the phase it does so in. -/
inductive Moves (s : State) : State → Prop
  | hold : Moves s s
  | emit (id cmd : Byte) (ps : List Byte) (checking : s.phase = .check) (fits : ps.length ≤ s.cfg.maxParams) :
      Moves s (emitRequest (encodeFrame id cmd ps) s)
  | drain (checking : s.phase = .check) : Moves s { s with phase := .tx }
  | decode (ready : s.phase = .check ∨ s.phase = .tx ∧ s.txq = []) : Moves s (startDecode s)
  | decoded (decoding : s.phase = .rx) (ended : s.ps = .done ∨ s.ps = .fail) :
      Moves s { s with phase := .interp }
  | parse (b : Byte) (rest : List Byte) (t : State) (decoding : s.phase = .rx)
      (reading : isReadState s.ps = true) (head : s.rxq = b :: rest)
      (parsed : parseByte b { s with rxq := rest } = .ok t) : Moves s t
  | succeed (p : Payload) (ready : s.phase = .tx ∧ s.txq = [] ∨ s.phase = .interp) :
      Moves s (finish .ok p {} s)
  | fail (k : Status) (n : Info) (failed : k ≠ .ok) (ready : s.phase = .check ∨ s.phase = .interp) :
      Moves s (finish k .none n s)
  | propagate (ended : s.phase = .interp) (failed : s.ps = .fail) : Moves s (finish s.fKind .none s.fInfo s)

theorem moves_of_checkStep {c : Config} {p : Plan} {s : State} (hp : s.phase = .check) (hc : s.cfg = c)
    (hfits : RequestFits c p) : Moves s (checkStep p s) := by
  rcases checkStep_cases p s with ⟨r, -, h⟩ | ⟨hv, f, hf, h⟩ | ⟨-, -, -, h⟩ | ⟨-, -, -, h⟩ <;> rw [h]
  · exact .fail _ _ (by simp) (.inl hp)
  · obtain ⟨id, cmd, ps, rfl, hlen⟩ := hfits hv f hf
    exact .emit id cmd ps hp (hc ▸ hlen)
  · exact .decode (.inl hp)
  · exact .drain hp

theorem moves_of_txStep {s : State} (p : Plan) (hp : s.phase = .tx) : Moves s (txStep p s) := by
  rcases txStep_cases p s with ⟨-, h⟩ | ⟨hq, -, h⟩ | ⟨hq, -, h⟩ <;> rw [h]
  · exact .hold
  · exact .decode (.inr ⟨hp, hq⟩)
  · exact .succeed _ (.inl ⟨hp, hq⟩)

theorem moves_of_rxStep {s t : State} (hp : s.phase = .rx) (h : rxStep s = .next t) : Moves s t := by
  rcases rxStep_next h with ⟨ended, rfl⟩ | ⟨-, -, rfl⟩ | ⟨hr, b, rest, hq, hb⟩
  · exact .decoded hp ended
  · exact .hold
  · exact .parse b rest t hp hr hq hb

/-! ## The interpretations -/

/-- How an interpretation finishes: with a payload and no info, or with a failure and no payload (R202, R86). -/
inductive Finishes (s : State) : State → Prop
  | succeed (p : Payload) : Finishes s (finish .ok p {} s)
  | fail (k : Status) (n : Info) (failed : k ≠ .ok) : Finishes s (finish k .none n s)

/-- A value read from `p_buf` that answers a next state was there. -/
theorem withParam_next {α : Type} {v : Option α} {k : α → State} {t : State}
    (h : withParam v k = .next t) : ∃ a, v = some a ∧ t = k a := by
  cases v with
  | none => cases h
  | some a => cases h; exact ⟨a, rfl, rfl⟩

theorem finishes_of_withParam {α : Type} {v : Option α} {f : α → Payload} {s t : State}
    (h : withParam v (fun a => finishOk (f a) s) = .next t) : Finishes s t := by
  obtain ⟨a, -, rfl⟩ := withParam_next h
  exact .succeed (f a)

theorem finishes_of_interpretStatus {s t : State} (h : interpretStatus s = .next t) : Finishes s t := by
  unfold interpretStatus at h
  split at h <;> cases h
  · exact .succeed _
  · exact .fail _ _ (by simp)

theorem finishes_of_interpretRead {s t : State} (h : interpretRead s = .next t) : Finishes s t := by
  unfold interpretRead at h
  split at h
  case h_1 => cases h; exact .fail _ _ (by simp)
  all_goals exact finishes_of_withParam h

theorem finishes_of_interpretSyncRead {n : Nat} {w : Byte} {s t : State}
    (h : interpretSyncRead n w s = .next t) : Finishes s t := by
  unfold interpretSyncRead at h
  split at h
  · cases h; exact .fail _ _ (by simp)
  · split at h
    · cases h; exact .fail _ _ (by simp)
    · exact finishes_of_withParam (f := id) h

/-- Every interpretation that answers a next state finishes its command in one of the two ways. -/
theorem finishes_of_interpretOf {i : Instr} {s t : State} (h : interpretOf i s = .next t) :
    Finishes s t := by
  cases i
  case recv => exact finishes_of_withParam h
  case ping | writeReg | torqueOn | torqueOff | setPosition => exact finishes_of_interpretStatus h
  case readReg | readPosition => exact finishes_of_interpretRead h
  case syncRead => exact finishes_of_interpretSyncRead h
  all_goals cases h

theorem moves_of_finishes {s t : State} (hp : s.phase = .interp) (h : Finishes s t) : Moves s t := by
  cases h with
  | succeed p => exact .succeed p (.inr hp)
  | fail k n failed => exact .fail k n failed (.inr hp)

/-! ## Instructions -/

theorem moves_of_runCommand {i : Instr} {p : Plan} {s t : State} (hp : planOf s.cfg i = some p)
    (h : runCommand p (interpretOf i) s = .next t) : Moves s t := by
  rcases runCommand_next h with ⟨-, rfl⟩ | ⟨hc, rfl⟩ | ⟨ht, rfl⟩ | ⟨hr, h⟩ | ⟨hi, hf, rfl⟩ | ⟨hi, -, h⟩ | ⟨-, rfl⟩
  · exact .hold
  · exact moves_of_checkStep hc rfl (requestFits_of_planOf hp)
  · exact moves_of_txStep p ht
  · exact moves_of_rxStep hr h
  · exact .propagate hi hf
  · exact moves_of_finishes hi (finishes_of_interpretOf h)
  · exact .hold

/-- An instruction that answers a next state makes one of the moves. -/
theorem moves_of_exec {i : Instr} {s t : State} (h : exec i s = .next t) : Moves s t := by
  rcases exec_next h with ⟨p, hp, h⟩ | ⟨op, h⟩ | ⟨id, cmd, ps, h⟩
  · exact moves_of_runCommand hp h
  · rcases runIllegal_next h with ⟨-, rfl⟩ | ⟨hc, rfl⟩
    · exact .hold
    · exact .fail _ _ (by simp) (.inl hc)
  · rcases runRequest_next h with ⟨-, rfl⟩ | ⟨hc, hfits, rfl⟩ | ⟨hc, -, rfl⟩
    · exact .hold
    · exact .emit id cmd ps hc hfits
    · exact .fail _ _ (by simp) (.inl hc)

/-! ## What the moves leave unchanged -/

/-- What no instruction changes (R33, R23, R36, R38). -/
structure CoreKept (s t : State) : Prop where
  cfg : t.cfg = s.cfg
  cur : t.cur = s.cur
  rxOverrun : t.rxOverrun = s.rxOverrun
  env : t.env = s.env

theorem Moves.coreKept {s t : State} (h : Moves s t) : CoreKept s t := by
  cases h with
  | parse b rest t decoding reading head parsed =>
    have keeps := parseByte_keeps parsed
    exact ⟨keeps.cfg, keeps.cur, keeps.rxOverrun, keeps.env⟩
  | _ => exact ⟨rfl, rfl, rfl, rfl⟩

/-- With room in the buffer, RPAR's step stores the byte and goes on or ends by the count (R112). -/
theorem readParam_next {b : Byte} {s t : State} (h : readParam b s = .ok t) :
    s.pN < s.pBuf.length ∧ t = rearm { s with
      pBuf := s.pBuf.set s.pN b
      pN := s.pN + 1
      pSum := s.pSum + b
      ps := if s.pN + 1 = s.pLen.toNat - 2 then .rchk else .rpar } := by
  unfold readParam at h
  split at h
  case isTrue hroom => cases h; exact ⟨hroom, rfl⟩
  case isFalse => cases h

/-- A parser step writes no byte of `p_buf` but the one at `p_n` (R112). -/
theorem parseByte_pBuf_ne {b : Byte} {s t : State} (h : parseByte b s = .ok t) {k : Nat} (hk : k ≠ s.pN) :
    t.pBuf[k]? = s.pBuf[k]? := by
  unfold parseByte at h
  split at h
  case h_6 =>
    obtain ⟨-, rfl⟩ := readParam_next h
    exact List.getElem?_set_ne hk.symm
  case h_1 | h_2 => cases h; unfold readHeader; split <;> rfl
  case h_3 => cases h; rfl
  case h_4 => cases h; unfold readLength; simp only; split <;> rfl
  case h_5 => cases h; rfl
  case h_7 =>
    cases h; unfold readChecksum; simp only
    split
    · split <;> rfl
    · rfl
  all_goals cases h

/-- Settles O33: each move changes only what its own phase writes. -/
theorem instructionsLeaveTheRestAlone : Obligations.InstructionsLeaveTheRestAlone := by
  intro i s t h
  have hmove := moves_of_exec h
  obtain ⟨hcfg, hcur, hover, henv⟩ := hmove.coreKept
  refine ⟨hcfg, hcur, hover, henv, ?_⟩
  cases hmove with
  | parse b rest t decoding reading head parsed =>
    have keeps := parseByte_keeps parsed
    have hphase : t.phase = .rx := keeps.phase.trans decoding
    have hrxq : t.rxq = rest := keeps.rxq
    exact ⟨.inr ⟨decoding, b, hrxq ▸ head⟩, fun h => absurd decoding h, fun h => absurd decoding h,
      fun k hk => parseByte_pBuf_ne parsed hk, fun _ => keeps.res⟩
  | _ => simp

/-! ## IDLE and RESULT -/

section AtRest

variable {s : State} (h : s.phase = .idle ∨ s.phase = .result)
include h

theorem runCommand_at_rest (p : Plan) (interpret : State → StepOutcome) :
    runCommand p interpret s = .next s := by
  unfold runCommand
  rcases h with h | h <;> rw [h]

theorem runIllegal_at_rest (op : Byte) : runIllegal op s = .next s := by
  unfold runIllegal
  rcases h with h | h <;> rw [h]

theorem runRequest_at_rest (ps f : List Byte) : runRequest ps f s = .next s := by
  unfold runRequest
  rcases h with h | h <;> rw [h]

end AtRest

/-- Settles O32: each of the three forms of instruction holds the state at rest. -/
theorem nothingRunsInIdleOrResult : Obligations.NothingRunsInIdleOrResult := by
  intro i s h
  cases i
  case reserved0 | reservedD | reservedE | reservedF => exact runIllegal_at_rest h _
  case wirePing => exact runRequest_at_rest h [] _
  case wireRead | wireWrite | wireSyncWrite | wireSyncRead => exact runRequest_at_rest h _ _
  all_goals exact runCommand_at_rest h _ _

end Sys2Proof.Machine
end

section
/-! What a step of the whole machine can do to each element, whatever the next event is. -/

namespace Sys2Proof.Machine

/-! ## The configuration and the accepted record -/

/-- No event changes the configuration. -/
theorem Performs.cfg_eq {s t : State} {e : Event} (h : Performs s e t) : t.cfg = s.cfg := by
  cases h with
  | seq i t running notIdle notResult fetched runs => exact (moves_of_exec runs).coreKept.cfg
  | _ => rfl

/-- Settles O41: a step is an event or nothing, and neither writes the configuration. -/
theorem configurationNeverChanges : Obligations.ConfigurationNeverChanges := by
  intro s t h
  obtain ⟨-, rfl | ⟨e, rest, -, hp⟩⟩ := step_performs h
  · rfl
  · exact hp.cfg_eq

/-- Settles O42: an instruction keeps `cur` whatever its move, and of the events only acceptance and reset write
it. -/
theorem curIsWrittenOnlyOnAcceptance : Obligations.CurIsWrittenOnlyOnAcceptance := by
  intro s t h hne
  obtain ⟨-, rfl | ⟨e, rest, hs, hp⟩⟩ := step_performs h
  · exact absurd rfl hne
  cases hp with
  | accept c cs running idle offered fits => exact .inl ⟨c, cs, rest, hs, idle, offered, rfl, rfl⟩
  | reset => exact .inr ⟨rest, hs⟩
  | seq i t running notIdle notResult fetched runs =>
    exact absurd (moves_of_exec runs).coreKept.cur hne
  | _ => exact absurd rfl hne

/-! ## The phase -/

/-- The ways the sequencer's own step moves the phase (R160). -/
def PhaseAdvances (s t : State) : Prop :=
  (s.phase = .check ∧ (t.phase = .tx ∨ t.phase = .rx ∨ t.phase = .result)) ∨
  (s.phase = .tx ∧ (t.phase = .rx ∨ t.phase = .result) ∧ s.txq = []) ∨
  (s.phase = .rx ∧ t.phase = .interp) ∨
  (s.phase = .interp ∧ t.phase = .result)

theorem Moves.phaseAdvances {s t : State} (h : Moves s t) (hne : t.phase ≠ s.phase) : PhaseAdvances s t := by
  cases h with
  | hold => exact absurd rfl hne
  | emit id cmd ps checking fits => exact .inl ⟨checking, .inl rfl⟩
  | drain checking => exact .inl ⟨checking, .inl rfl⟩
  | decode ready =>
    rcases ready with checking | ⟨draining, empty⟩
    · exact .inl ⟨checking, .inr (.inl rfl)⟩
    · exact .inr (.inl ⟨draining, .inl rfl, empty⟩)
  | decoded decoding ended => exact .inr (.inr (.inl ⟨decoding, rfl⟩))
  | parse b rest t decoding reading head parsed => exact absurd (parseByte_keeps parsed).phase hne
  | succeed p ready =>
    rcases ready with ⟨draining, empty⟩ | ended
    · exact .inr (.inl ⟨draining, .inr rfl, empty⟩)
    · exact .inr (.inr (.inr ⟨ended, rfl⟩))
  | fail k n failed ready =>
    rcases ready with checking | ended
    · exact .inl ⟨checking, .inr (.inr rfl)⟩
    · exact .inr (.inr (.inr ⟨ended, rfl⟩))
  | propagate ended failed => exact .inr (.inr (.inr ⟨ended, rfl⟩))

/-- Settles O43: reset, acceptance and the taking of a result move the phase, and else the instruction's
own move. -/
theorem phaseMovesOnlyAsTheSequencerSays : Obligations.PhaseMovesOnlyAsTheSequencerSays := by
  intro s t h hne
  obtain ⟨-, rfl | ⟨e, rest, hs, hp⟩⟩ := step_performs h
  · exact absurd rfl hne
  cases hp with
  | reset => exact .inl ⟨rest, hs, rfl⟩
  | accept c cs running idle offered fits => exact .inr (.inl ⟨idle, rfl⟩)
  | take running waiting =>
    exact .inr (.inr (.inr (.inr (.inr (.inr ⟨waiting, rfl, rest, hs⟩)))))
  | seq i t running notIdle notResult fetched runs =>
    rcases (moves_of_exec runs).phaseAdvances hne with h | h | h | h
    · exact .inr (.inr (.inl h))
    · exact .inr (.inr (.inr (.inl h)))
    · exact .inr (.inr (.inr (.inr (.inl h))))
    · exact .inr (.inr (.inr (.inr (.inr (.inl h)))))
  | _ => exact absurd rfl hne

/-! ## The queues -/

/-- An instruction leaves `rxq` alone, or takes its head in a read state of phase RX (R143). -/
theorem Moves.rxq_eq_or_popped {s t : State} (h : Moves s t) :
    t.rxq = s.rxq ∨ (s.phase = .rx ∧ isReadState s.ps = true ∧ ∃ b, s.rxq = b :: t.rxq) := by
  cases h with
  | parse b rest t decoding reading head parsed =>
    have hrxq : t.rxq = rest := (parseByte_keeps parsed).rxq
    exact .inr ⟨decoding, reading, b, hrxq ▸ head⟩
  | _ => exact .inl rfl

/-- Settles O44: an arrival, a reset, or the pop of the instruction's own move. -/
theorem rxqIsFirstInFirstOut : Obligations.RxqIsFirstInFirstOut := by
  intro s t h
  obtain ⟨-, rfl | ⟨e, rest, hs, hp⟩⟩ := step_performs h
  · exact .inl rfl
  cases hp with
  | arrive b running room => exact .inr (.inl ⟨b, rest, hs, rfl, room⟩)
  | reset => exact .inr (.inr (.inr ⟨rest, hs, rfl⟩))
  | seq i t running notIdle notResult fetched runs =>
    rcases (moves_of_exec runs).rxq_eq_or_popped with h | ⟨decoding, reading, b, popped⟩
    · exact .inl h
    · exact .inr (.inr (.inl ⟨b, rest, hs, decoding, reading, popped⟩))
  | _ => exact .inl rfl

/-- An instruction leaves `txq` alone, or puts one frame behind it in CHECK (R140). -/
theorem Moves.txq_eq_or_queued {s t : State} (h : Moves s t) :
    t.txq = s.txq ∨ ∃ id cmd ps, s.phase = .check ∧ t.phase = .tx ∧ ps.length ≤ s.cfg.maxParams ∧
      t.txq = s.txq ++ encodeFrame id cmd ps := by
  cases h with
  | emit id cmd ps checking fits => exact .inr ⟨id, cmd, ps, checking, rfl, fits, rfl⟩
  | parse b rest t decoding reading head parsed => exact .inl (parseByte_keeps parsed).txq
  | _ => exact .inl rfl

/-- Settles O45: the TX port, a reset, or the frame of the instruction's own move; no move touches `env.sent`. -/
theorem txqIsFirstInFirstOut : Obligations.TxqIsFirstInFirstOut := by
  intro s t h
  obtain ⟨-, rfl | ⟨e, rest, hs, hp⟩⟩ := step_performs h
  · exact .inl ⟨rfl, rfl⟩
  cases hp with
  | send b bs running head => exact .inr (.inl ⟨b, rest, hs, head, rfl⟩)
  | reset => exact .inr (.inr (.inr ⟨rest, hs, rfl, rfl⟩))
  | seq i t running notIdle notResult fetched runs =>
    have hmove := moves_of_exec runs
    have hsent : t.env.sent = s.env.sent := by rw [hmove.coreKept.env]
    rcases hmove.txq_eq_or_queued with hq | ⟨id, cmd, ps, checking, sending, fits, hq⟩
    · exact .inl ⟨hq, hsent⟩
    · exact .inr (.inr (.inl ⟨id, cmd, ps, rest, hs, checking, sending, fits, hq, hsent⟩))
  | _ => exact .inl ⟨rfl, rfl⟩

/-! ## The overrun flag and the waiting result -/

/-- Settles O46: no move of an instruction writes the flag, and of the events only a lost byte and a reset. -/
theorem overrunIsStickyUntilReset : Obligations.OverrunIsStickyUntilReset := by
  intro s t h hne
  obtain ⟨-, rfl | ⟨e, rest, hs, hp⟩⟩ := step_performs h
  · exact absurd rfl hne
  cases hp with
  | lose b running full => exact .inl ⟨rfl, full, b, rest, hs⟩
  | reset => exact .inr ⟨rfl, rest, hs⟩
  | seq i t running notIdle notResult fetched runs =>
    exact absurd (moves_of_exec runs).coreKept.rxOverrun hne
  | _ => exact absurd rfl hne

/-- Settles O47: in RESULT no instruction runs and no record is accepted. -/
theorem resultWaitsUntilTaken : Obligations.ResultWaitsUntilTaken := by
  intro s t h hresult hnotake hnoreset
  obtain ⟨-, rfl | ⟨e, rest, hs, hp⟩⟩ := step_performs h
  · exact ⟨hresult, rfl, rfl, rfl⟩
  cases hp with
  | take running waiting => exact absurd hs (hnotake rest)
  | reset => exact absurd hs (hnoreset rest)
  | accept c cs running idle offered fits => cases hresult.symm.trans idle
  | seq i t running notIdle notResult fetched runs => exact absurd hresult notResult
  | _ => exact ⟨hresult, rfl, rfl, rfl⟩

end Sys2Proof.Machine
end

section
/-! The invariant: what it says, field by field, and that every step keeps it. -/

namespace Sys2Proof.Machine

/-! ## The invariant as a proposition -/

/-- What `invariant` says, one field for each of its conjuncts. -/
structure Invariant (s : State) : Prop where
  valid : s.cfg.valid = true
  depth : s.pBuf.length = s.cfg.paramBufDepth
  count : s.pN ≤ 253
  rxFits : s.rxq.length ≤ s.cfg.rxFifoDepth
  txFits : s.txq.length ≤ s.cfg.maxParams + 6
  txOnly : s.txq = [] ∨ s.phase = .tx
  armed : s.tArmed = timerArmed s.ps s.rxq
  resultValid : s.resValid = decide (s.phase = .result)
  placed : parserPlaced s.phase s.ps = true
  parser : parserHolds s = true
  command : commandHolds s = true

theorem invariant_iff {s : State} : invariant s = true ↔ Invariant s := by
  simp only [invariant, Bool.and_eq_true, Bool.or_eq_true, decide_eq_true_eq, List.isEmpty_iff]
  constructor
  · rintro ⟨⟨⟨⟨⟨⟨⟨⟨⟨⟨valid, depth⟩, count⟩, rxFits⟩, txFits⟩, txOnly⟩, armed⟩, resultValid⟩, placed⟩,
      parser⟩, command⟩
    exact ⟨valid, depth, count, rxFits, txFits, txOnly, armed, resultValid, placed, parser, command⟩
  · rintro ⟨valid, depth, count, rxFits, txFits, txOnly, armed, resultValid, placed, parser, command⟩
    exact ⟨⟨⟨⟨⟨⟨⟨⟨⟨⟨valid, depth⟩, count⟩, rxFits⟩, txFits⟩, txOnly⟩, armed⟩, resultValid⟩, placed⟩,
      parser⟩, command⟩

/-- A decode is in progress in RX and INTERP alone. -/
theorem ps_idle_of_parserPlaced {p : Phase} {q : PState} (h : parserPlaced p q = true) (hrx : p ≠ .rx)
    (hinterp : p ≠ .interp) : q = .idle := by
  unfold parserPlaced at h
  split at h
  case h_1 | h_2 => exact absurd rfl hrx
  case h_3 | h_4 | h_5 => exact absurd rfl hinterp
  case h_6 => rfl
  case h_7 => cases h

theorem parserPlaced_rx {q : PState} : parserPlaced .rx q = true ↔ q ≠ .idle := by
  cases q <;> simp [parserPlaced]

theorem parserPlaced_interp {q : PState} : parserPlaced .interp q = true ↔ q = .done ∨ q = .fail := by
  cases q <;> simp [parserPlaced]

/-- A read state is a state of phase RX. -/
theorem rx_of_isReadState {p : Phase} {q : PState} (h : parserPlaced p q = true)
    (hr : isReadState q = true) : p = .rx := by
  unfold parserPlaced at h
  split at h
  case h_1 | h_2 => rfl
  case h_3 | h_4 | h_6 => cases hr
  case h_5 | h_7 => cases h

/-! ## The running sum and the received parameters -/

/-- The sum goes on byte by byte (R100). -/
theorem sum8_append_singleton (bs : List Byte) (b : Byte) : sum8 (bs ++ [b]) = sum8 bs + b := by
  simp [sum8, BitVec.ofNat_add]

/-- The byte that makes the checksum test hold is the checksum of what was summed (R101, R102). -/
theorem eq_sub_of_checksumHolds {sum c : Byte} (h : checksumHolds sum c = true) : c = 0xFF - sum := by
  simp only [checksumHolds, decide_eq_true_eq] at h
  rw [← h]
  exact (add_sub_cancel_left sum c).symm

/-- The parameters received are one more after a byte is written at `p_n`. -/
theorem take_succ_set {bs : List Byte} {n : Nat} (h : n < bs.length) (b : Byte) :
    (bs.set n b).take (n + 1) = bs.take n ++ [b] := by
  rw [List.take_set, List.take_add_one, List.getElem?_eq_getElem h, List.set_append_right]
  · simp [Nat.min_eq_left (Nat.le_of_lt h)]
  · simp

/-! ## What the parse registers hold in each state -/

/-- The registers before the ID byte: nothing summed, nothing received. -/
def BeforeId (s : State) : Prop := s.pN = 0 ∧ s.pSum = 0 ∧ s.fKind = .ok ∧ s.fInfo = {}

theorem parserHolds_beforeId {s : State} (h : s.ps = .ah1 ∨ s.ps = .ah2 ∨ s.ps = .rid) :
    parserHolds s = true ↔ BeforeId s := by
  rcases h with h | h | h <;> simp [parserHolds, h, BeforeId]

theorem parserHolds_rlen {s : State} (h : s.ps = .rlen) :
    parserHolds s = true ↔ s.pN = 0 ∧ s.pSum = sum8 [s.pId] ∧ s.fKind = .ok ∧ s.fInfo = {} := by
  simp [parserHolds, h]

theorem parserHolds_rcmd {s : State} (h : s.ps = .rcmd) :
    parserHolds s = true ↔ s.pN = 0 ∧ s.pSum = sum8 [s.pId, s.pLen] ∧ s.fKind = .ok ∧ s.fInfo = {} ∧
      (2 ≤ s.pLen.toNat ∨ s.cfg.shortLength = .zeroParams) := by
  simp [parserHolds, h]

theorem parserHolds_rpar {s : State} (h : s.ps = .rpar) :
    parserHolds s = true ↔ s.pN < s.pLen.toNat - 2 ∧
      s.pSum = sum8 ([s.pId, s.pLen, s.pCmd] ++ receivedParams s) ∧ s.fKind = .ok ∧ s.fInfo = {} := by
  simp [parserHolds, h]

theorem parserHolds_rchk {s : State} (h : s.ps = .rchk) :
    parserHolds s = true ↔ s.pN = s.pLen.toNat - 2 ∧
      s.pSum = sum8 ([s.pId, s.pLen, s.pCmd] ++ receivedParams s) ∧ s.fKind = .ok ∧ s.fInfo = {} ∧
      (2 ≤ s.pLen.toNat ∨ s.cfg.shortLength = .zeroParams) := by
  simp [parserHolds, h]

theorem parserHolds_done {s : State} (h : s.ps = .done) :
    parserHolds s = true ↔ s.pLen.toNat = 2 + s.pN ∧
      s.pChk = chk8 s.pId s.pLen s.pCmd (receivedParams s) ∧ s.fKind = .ok ∧ s.fInfo = {} := by
  simp [parserHolds, h]

theorem parserHolds_fail {s : State} (h : s.ps = .fail) :
    parserHolds s = true ↔ s.fKind ∈ [.timeout, .framing, .checksum, .length] := by
  simp [parserHolds, h]

/-! ## The parser keeps them -/

/-- What the parse registers are after a step of the parser: in a decode, as their state says, within the count's
bound. -/
structure ParserFits (s : State) : Prop where
  started : s.ps ≠ .idle
  holds : parserHolds s = true
  count : s.pN ≤ 253

theorem parserFits_failDecode {k : Status} {i : Info} {s : State} (hcount : s.pN ≤ 253)
    (hk : k ∈ [.timeout, .framing, .checksum, .length]) : ParserFits (failDecode k i s) :=
  ⟨by simp, (parserHolds_fail rfl).2 hk, hcount⟩

theorem parserFits_readHeader {here next : PState} {b : Byte} {s : State} (h : BeforeId s)
    (hnext : next = .ah2 ∨ next = .rid) : ParserFits (readHeader here next b s) := by
  have hcount : s.pN ≤ 253 := by simp [h.1]
  unfold readHeader
  split
  · refine ⟨?_, (parserHolds_beforeId (.inr hnext)).2 h, hcount⟩
    rcases hnext with rfl | rfl <;> simp
  · exact parserFits_failDecode hcount (by simp)

theorem parserFits_readId {b : Byte} {s : State} (h : BeforeId s) : ParserFits (readId b s) := by
  obtain ⟨hn, -, hk, hi⟩ := h
  have hsum : b = sum8 [b] := by simp [sum8]
  exact ⟨by simp [readId], (parserHolds_rlen rfl).2 ⟨hn, hsum, hk, hi⟩, by simp [readId, hn]⟩

theorem parserFits_readLength {b : Byte} {s : State} (hps : s.ps = .rlen) (h : parserHolds s = true) :
    ParserFits (readLength b s) := by
  obtain ⟨hn, hsum, hk, hi⟩ := (parserHolds_rlen hps).1 h
  unfold readLength
  simp only
  split
  case isTrue => exact parserFits_failDecode (by simp [hn]) (by simp)
  case isFalse hlong =>
    have hpolicy : 2 ≤ b.toNat ∨ s.cfg.shortLength = .zeroParams := by
      cases hs : s.cfg.shortLength with
      | abort => exact .inl (Nat.le_of_not_lt fun hb => hlong ⟨hb, hs⟩)
      | zeroParams => exact .inr rfl
    have hnext : s.pSum + b = sum8 [s.pId, b] := by
      rw [hsum]; exact (sum8_append_singleton [s.pId] b).symm
    exact ⟨by simp, (parserHolds_rcmd rfl).2 ⟨hn, hnext, hk, hi, hpolicy⟩, by simp [hn]⟩

theorem parserFits_readCommand {b : Byte} {s : State} (hps : s.ps = .rcmd) (h : parserHolds s = true) :
    ParserFits (readCommand b s) := by
  obtain ⟨hn, hsum, hk, hi, hpolicy⟩ := (parserHolds_rcmd hps).1 h
  have hcount : (readCommand b s).pN ≤ 253 := by simp [readCommand, hn]
  have hnext : s.pSum + b = sum8 ([s.pId, s.pLen, b] ++ s.pBuf.take s.pN) := by
    rw [hsum, hn]; exact (sum8_append_singleton [s.pId, s.pLen] b).symm
  by_cases hlen : s.pLen.toNat ≤ 2
  · have hps' : (readCommand b s).ps = .rchk := by simp [readCommand, hlen]
    have hlast : s.pN = s.pLen.toNat - 2 := by omega
    exact ⟨by simp [hps'], (parserHolds_rchk hps').2 ⟨hlast, hnext, hk, hi, hpolicy⟩, hcount⟩
  · have hps' : (readCommand b s).ps = .rpar := by simp [readCommand, hlen]
    have hmore : s.pN < s.pLen.toNat - 2 := by omega
    exact ⟨by simp [hps'], (parserHolds_rpar hps').2 ⟨hmore, hnext, hk, hi⟩, hcount⟩

theorem parserFits_readParam {b : Byte} {s t : State} (hps : s.ps = .rpar) (h : parserHolds s = true)
    (hread : readParam b s = .ok t) : ParserFits t := by
  obtain ⟨hn, hsum, hk, hi⟩ := (parserHolds_rpar hps).1 h
  obtain ⟨hroom, rfl⟩ := readParam_next hread
  have hcount : s.pN + 1 ≤ 253 := by have := s.pLen.isLt; omega
  have hnext : s.pSum + b =
      sum8 ([s.pId, s.pLen, s.pCmd] ++ (s.pBuf.set s.pN b).take (s.pN + 1)) := by
    rw [hsum, take_succ_set hroom, ← List.append_assoc]
    exact (sum8_append_singleton _ b).symm
  by_cases hlast : s.pN + 1 = s.pLen.toNat - 2
  · have hlen : 2 ≤ s.pLen.toNat := by omega
    exact ⟨by simp [hlast],
      (parserHolds_rchk (by simp [hlast])).2 ⟨hlast, hnext, hk, hi, .inl hlen⟩, hcount⟩
  · have hmore : s.pN + 1 < s.pLen.toNat - 2 := by omega
    exact ⟨by simp [hlast], (parserHolds_rpar (by simp [hlast])).2 ⟨hmore, hnext, hk, hi⟩, hcount⟩

theorem parserFits_readChecksum {b : Byte} {s : State} (hps : s.ps = .rchk) (hcount : s.pN ≤ 253)
    (h : parserHolds s = true) : ParserFits (readChecksum b s) := by
  obtain ⟨hn, hsum, hk, hi, -⟩ := (parserHolds_rchk hps).1 h
  unfold readChecksum
  simp only
  split
  case isFalse => exact parserFits_failDecode hcount (by simp)
  case isTrue hvalid =>
    split
    case isTrue => exact parserFits_failDecode hcount (by simp)
    case isFalse hlong =>
      have hlen : s.pLen.toNat = 2 + s.pN := by omega
      have hchk : b = chk8 s.pId s.pLen s.pCmd (receivedParams s) := by
        rw [eq_sub_of_checksumHolds hvalid, hsum]; rfl
      exact ⟨by simp, (parserHolds_done rfl).2 ⟨hlen, hchk, hk, hi⟩, hcount⟩

/-- Every step of the parser leaves the registers as its next state says. -/
theorem parserFits_parseByte {b : Byte} {s t : State} (hcount : s.pN ≤ 253) (h : parserHolds s = true)
    (hparse : parseByte b s = .ok t) : ParserFits t := by
  unfold parseByte at hparse
  split at hparse
  case h_1 hps => cases hparse; exact parserFits_readHeader ((parserHolds_beforeId (.inl hps)).1 h) (.inl rfl)
  case h_2 hps =>
    cases hparse; exact parserFits_readHeader ((parserHolds_beforeId (.inr (.inl hps))).1 h) (.inr rfl)
  case h_3 hps => cases hparse; exact parserFits_readId ((parserHolds_beforeId (.inr (.inr hps))).1 h)
  case h_4 hps => cases hparse; exact parserFits_readLength hps h
  case h_5 hps => cases hparse; exact parserFits_readCommand hps h
  case h_6 hps => exact parserFits_readParam hps h hparse
  case h_7 hps => cases hparse; exact parserFits_readChecksum hps hcount h
  all_goals cases hparse

end Sys2Proof.Machine
end

section
/-! Every step keeps the invariant: the running command, the moves of an instruction, the events. -/

namespace Sys2Proof.Machine

/-! ## The running command -/

/-- The running command's plan is read from the configuration and `cur` alone. -/
theorem runningPlan_congr {s t : State} (hcfg : t.cfg = s.cfg) (hcur : t.cur = s.cur) :
    runningPlan t = runningPlan s := by
  unfold runningPlan fetch
  rw [hcfg, hcur]

theorem runningPlan_of_fetch {s : State} {i : Instr} {p : Plan} (hf : fetch s = .ok i)
    (hp : planOf s.cfg i = some p) : runningPlan s = some p := by
  simp [runningPlan, hf, hp]

theorem commandHolds_tx {s : State} (h : s.phase = .tx) :
    commandHolds s = true ↔ s.cur.wellFormed = true ∧ ∃ p, runningPlan s = some p ∧ p.verdict = none := by
  simp [commandHolds, h, Option.any_eq_true]

theorem commandHolds_reply {s : State} (h : s.phase = .rx ∨ s.phase = .interp) :
    commandHolds s = true ↔
      s.cur.wellFormed = true ∧ ∃ p, runningPlan s = some p ∧ p.verdict = none ∧ p.reply = true := by
  rcases h with h | h <;> simp [commandHolds, h, Option.any_eq_true]

/-- The command's part of the invariant reads the phase, the configuration and `cur` alone. -/
theorem commandHolds_congr {s t : State} (hphase : t.phase = s.phase) (hcfg : t.cfg = s.cfg)
    (hcur : t.cur = s.cur) : commandHolds t = commandHolds s := by
  unfold commandHolds
  rw [hphase, hcur, runningPlan_congr hcfg hcur]

section CommandRuns

variable {s t : State} {i : Instr} {p : Plan}

/-- What a step of a command finds: it was fetched, and the plan is its own. -/
structure Running (s : State) (i : Instr) (p : Plan) : Prop where
  fetched : fetch s = .ok i
  planned : planOf s.cfg i = some p

theorem Running.wellFormed (h : Running s i p) : s.cur.wellFormed = true := (fetch_ok h.fetched).1

theorem Running.plan (h : Running s i p) : runningPlan s = some p :=
  runningPlan_of_fetch h.fetched h.planned

/-- A running command whose checks pass may be in TX. -/
theorem Running.commandHolds_tx (h : Running s i p) (hv : p.verdict = none) (hphase : t.phase = .tx)
    (hcfg : t.cfg = s.cfg) (hcur : t.cur = s.cur) : commandHolds t = true :=
  (Machine.commandHolds_tx hphase).2
    ⟨hcur ▸ h.wellFormed, p, (runningPlan_congr hcfg hcur).trans h.plan, hv⟩

/-- A running command whose checks pass and that expects a response may be in RX and INTERP. -/
theorem Running.commandHolds_reply (h : Running s i p) (hv : p.verdict = none) (hr : p.reply = true)
    (hphase : t.phase = .rx ∨ t.phase = .interp) (hcfg : t.cfg = s.cfg) (hcur : t.cur = s.cur) :
    commandHolds t = true :=
  (Machine.commandHolds_reply hphase).2
    ⟨hcur ▸ h.wellFormed, p, (runningPlan_congr hcfg hcur).trans h.plan, hv, hr⟩

theorem Running.commandHolds_checkStep (h : Running s i p) : commandHolds (checkStep p s) = true := by
  rcases checkStep_cases p s with ⟨r, -, e⟩ | ⟨hv, f, -, e⟩ | ⟨hv, -, hr, e⟩ | ⟨hv, -, -, e⟩ <;> rw [e]
  · rfl
  · exact h.commandHolds_tx hv rfl rfl rfl
  · exact h.commandHolds_reply hv hr (.inl rfl) rfl rfl
  · exact h.commandHolds_tx hv rfl rfl rfl

theorem Running.commandHolds_txStep (h : Running s i p) (hphase : s.phase = .tx)
    (hc : commandHolds s = true) : commandHolds (txStep p s) = true := by
  obtain ⟨-, q, hq, hv⟩ := (Machine.commandHolds_tx hphase).1 hc
  obtain rfl : p = q := Option.some.inj (h.plan.symm.trans hq)
  rcases txStep_cases p s with ⟨-, e⟩ | ⟨-, hr, e⟩ | ⟨-, -, e⟩ <;> rw [e]
  · exact hc
  · exact h.commandHolds_reply hv hr (.inl rfl) rfl rfl
  · rfl

theorem commandHolds_rxStep (hphase : s.phase = .rx) (hc : commandHolds s = true)
    (h : rxStep s = .next t) : commandHolds t = true := by
  rcases rxStep_next h with ⟨-, rfl⟩ | ⟨-, -, rfl⟩ | ⟨-, b, rest, -, hb⟩
  · exact (commandHolds_reply (.inr rfl)).2 ((commandHolds_reply (.inl hphase)).1 hc)
  · exact hc
  · have keeps := parseByte_keeps hb
    exact (commandHolds_congr keeps.phase keeps.cfg keeps.cur).trans hc

/-- A command that was past its checks when its phase needs it still is after its step. -/
theorem Running.commandHolds_runCommand (h : Running s i p) (hc : commandHolds s = true)
    (hrun : runCommand p (interpretOf i) s = .next t) : commandHolds t = true := by
  rcases runCommand_next hrun with
    ⟨-, rfl⟩ | ⟨-, rfl⟩ | ⟨ht, rfl⟩ | ⟨hr, hrx⟩ | ⟨-, -, rfl⟩ | ⟨-, -, hi⟩ | ⟨-, rfl⟩
  · exact hc
  · exact h.commandHolds_checkStep
  · exact h.commandHolds_txStep ht hc
  · exact commandHolds_rxStep hr hc hrx
  · rfl
  · obtain ⟨k, q, n, rfl⟩ := interpretOf_next hi
    rfl
  · exact hc

end CommandRuns

/-- The step of the fetched instruction keeps the command's part of the invariant. -/
theorem commandHolds_of_exec {s t : State} {i : Instr} (hf : fetch s = .ok i) (hc : commandHolds s = true)
    (h : exec i s = .next t) : commandHolds t = true := by
  have of_illegal : ∀ op, runIllegal op s = .next t → commandHolds t = true := by
    intro op h
    rcases runIllegal_next h with ⟨-, rfl⟩ | ⟨-, rfl⟩
    · exact hc
    · rfl
  obtain ⟨-, -, ⟨reply, hreply⟩ | rfl | rfl | rfl | rfl⟩ := fetch_ok hf
  · obtain ⟨p, hp, -⟩ := plan_of_responseExpected hreply
    rw [exec_eq_runCommand hp] at h
    exact Running.commandHolds_runCommand ⟨hf, hp⟩ hc h
  · exact of_illegal 0x00 h
  · exact of_illegal 0x0D h
  · exact of_illegal 0x0E h
  · exact of_illegal 0x0F h

/-! ## The moves -/

/-- A frame of n parameters has n + 6 bytes (R70). -/
theorem encodeFrame_length (id cmd : Byte) (ps : List Byte) : (encodeFrame id cmd ps).length = ps.length + 6 := by
  simp [encodeFrame]

namespace Invariant

variable {s t : State}

/-- The environment is no part of the invariant. -/
theorem withEnv (h : Invariant s) (e : Env) : Invariant { s with env := e } where
  __ := h

theorem txq_empty (h : Invariant s) (hphase : s.phase ≠ .tx) : s.txq = [] :=
  h.txOnly.resolve_right hphase

theorem resValid_false (h : Invariant s) (hphase : s.phase ≠ .result) : s.resValid = false := by
  simp [h.resultValid, hphase]

/-- Outside a decode the parser is where every phase without one wants it. -/
theorem placed_idle (h : Invariant s) (hrx : s.phase ≠ .rx) (hinterp : s.phase ≠ .interp) {p : Phase}
    (hp : parserPlaced p .idle = true) : parserPlaced p s.ps = true := by
  rwa [ps_idle_of_parserPlaced h.placed hrx hinterp]

/-- A finished command: nothing left to send, no decode. -/
theorem finish (h : Invariant s) (hq : s.txq = []) (k : Status) (p : Payload) (n : Info) :
    Invariant (finish k p n s) where
  valid := h.valid
  depth := h.depth
  count := h.count
  rxFits := h.rxFits
  txFits := h.txFits
  txOnly := .inl hq
  armed := rfl
  resultValid := rfl
  placed := rfl
  parser := rfl
  command := rfl

theorem startDecode (h : Invariant s) (hq : s.txq = []) (hphase : s.phase ≠ .result)
    (hc : commandHolds (startDecode s) = true) : Invariant (startDecode s) where
  valid := h.valid
  depth := h.depth
  count := Nat.zero_le _
  rxFits := h.rxFits
  txFits := h.txFits
  txOnly := .inl hq
  armed := rfl
  resultValid := h.resValid_false hphase
  placed := rfl
  parser := rfl
  command := hc

/-- From CHECK to TX, with at most one whole frame to send. -/
theorem toTx (h : Invariant s) (hphase : s.phase = .check) {q : List Byte}
    (hq : q.length ≤ s.cfg.maxParams + 6) (hc : commandHolds { s with txq := q, phase := .tx } = true) :
    Invariant { s with txq := q, phase := .tx } where
  valid := h.valid
  depth := h.depth
  count := h.count
  rxFits := h.rxFits
  txFits := hq
  txOnly := .inr rfl
  armed := h.armed
  resultValid := h.resValid_false (by simp [hphase])
  placed := h.placed_idle (by simp [hphase]) (by simp [hphase]) rfl
  parser := h.parser
  command := hc

theorem toInterp (h : Invariant s) (hphase : s.phase = .rx) (hended : s.ps = .done ∨ s.ps = .fail)
    (hc : commandHolds { s with phase := .interp } = true) : Invariant { s with phase := .interp } where
  valid := h.valid
  depth := h.depth
  count := h.count
  rxFits := h.rxFits
  txFits := h.txFits
  txOnly := .inl (h.txq_empty (by simp [hphase]))
  armed := h.armed
  resultValid := h.resValid_false (by simp [hphase])
  placed := parserPlaced_interp.2 hended
  parser := h.parser
  command := hc

/-- A parser step on the popped head of `rxq`. -/
theorem parse (h : Invariant s) (hphase : s.phase = .rx) {b : Byte} {rest : List Byte}
    (hq : s.rxq = b :: rest) (hparse : parseByte b { s with rxq := rest } = .ok t)
    (hc : commandHolds t = true) : Invariant t := by
  have keeps := parseByte_keeps hparse
  have fits : ParserFits t := parserFits_parseByte (s := { s with rxq := rest }) h.count h.parser hparse
  have htphase : t.phase = .rx := keeps.phase.trans hphase
  have htcfg : t.cfg = s.cfg := keeps.cfg
  have htrxq : t.rxq = rest := keeps.rxq
  have htxq : t.txq = [] := keeps.txq.trans (h.txq_empty (by simp [hphase]))
  have hres : t.resValid = false := keeps.resValid.trans (h.resValid_false (by simp [hphase]))
  exact {
    valid := htcfg ▸ h.valid
    depth := by rw [htcfg]; exact keeps.depth.trans h.depth
    count := fits.count
    rxFits := by
      have hlen := h.rxFits
      rw [hq, List.length_cons] at hlen
      rw [htrxq, htcfg]
      omega
    txFits := by simp [htxq]
    txOnly := .inl htxq
    armed := keeps.armed
    resultValid := by simp [hres, htphase]
    placed := htphase ▸ parserPlaced_rx.2 fits.started
    parser := fits.holds
    command := hc }

/-- An instruction's move keeps the invariant, as far as it keeps the command's part. -/
theorem moves (h : Invariant s) (hm : Moves s t) (hc : commandHolds t = true) : Invariant t := by
  cases hm with
  | hold => exact h
  | emit id cmd ps checking fits =>
    refine h.toTx checking ?_ hc
    rw [h.txq_empty (by simp [checking]), List.nil_append, encodeFrame_length]
    exact Nat.add_le_add_right fits 6
  | drain checking => exact h.toTx checking h.txFits hc
  | decode ready =>
    have hq : s.txq = [] := by
      rcases ready with checking | ⟨-, empty⟩
      · exact h.txq_empty (by simp [checking])
      · exact empty
    have hphase : s.phase ≠ .result := by
      rcases ready with checking | ⟨draining, -⟩ <;> simp [*]
    exact h.startDecode hq hphase hc
  | decoded decoding ended => exact h.toInterp decoding ended hc
  | parse b rest t decoding reading head parsed => exact h.parse decoding head parsed hc
  | succeed p ready =>
    refine h.finish ?_ _ _ _
    rcases ready with ⟨-, empty⟩ | ended
    · exact empty
    · exact h.txq_empty (by simp [ended])
  | fail k n failed ready =>
    refine h.finish (h.txq_empty ?_) _ _ _
    rcases ready with checking | ended <;> simp [*]
  | propagate ended failed => exact h.finish (h.txq_empty (by simp [ended])) _ _ _

/-! ## The events -/

theorem accept (h : Invariant s) (hphase : s.phase = .idle) {c : HostCmd} (hw : c.wellFormed = true)
    (e : Env) : Invariant { s with cur := c, phase := .check, env := e } where
  valid := h.valid
  depth := h.depth
  count := h.count
  rxFits := h.rxFits
  txFits := h.txFits
  txOnly := .inl (h.txq_empty (by simp [hphase]))
  armed := h.armed
  resultValid := h.resValid_false (by simp [hphase])
  placed := h.placed_idle (by simp [hphase]) (by simp [hphase]) rfl
  parser := h.parser
  command := hw

theorem take (h : Invariant s) (hphase : s.phase = .result) (e : Env) :
    Invariant { s with resValid := false, phase := .idle, env := e } where
  valid := h.valid
  depth := h.depth
  count := h.count
  rxFits := h.rxFits
  txFits := h.txFits
  txOnly := .inl (h.txq_empty (by simp [hphase]))
  armed := h.armed
  resultValid := rfl
  placed := h.placed_idle (by simp [hphase]) (by simp [hphase]) rfl
  parser := h.parser
  command := rfl

theorem send (h : Invariant s) {b : Byte} {rest : List Byte} (hq : s.txq = b :: rest) (e : Env) :
    Invariant { s with txq := rest, env := e } where
  __ := h
  txFits := by
    have hlen := h.txFits
    rw [hq, List.length_cons] at hlen
    exact Nat.le_of_succ_le hlen
  txOnly := .inr (h.txOnly.resolve_left (by simp [hq]))

theorem arrive (h : Invariant s) (b : Byte) (room : s.rxq.length < s.cfg.rxFifoDepth) :
    Invariant (rearm { s with rxq := s.rxq ++ [b] }) where
  __ := h
  rxFits := by simpa using room
  armed := rfl

/-- The timer is armed in RX alone, and its firing ends the decode. -/
theorem timeout (h : Invariant s) (ha : s.tArmed = true) : Invariant (timeoutDecode s) where
  __ := h
  armed := rfl
  placed := by
    have hread : isReadState s.ps = true := (Bool.and_eq_true_iff.1 (h.armed.symm.trans ha)).1
    have hphase : s.phase = .rx := rx_of_isReadState h.placed hread
    simp [timeoutDecode, hphase, parserPlaced_rx]
  parser := (parserHolds_fail rfl).2 (by simp [timeoutDecode])

theorem reset {c : Config} (hv : c.valid = true) (e : Env) : Invariant (State.atReset c e) where
  valid := hv
  depth := List.length_replicate
  count := Nat.zero_le _
  rxFits := Nat.zero_le _
  txFits := Nat.zero_le _
  txOnly := .inl rfl
  armed := rfl
  resultValid := rfl
  placed := rfl
  parser := rfl
  command := rfl

/-- Every event keeps the invariant. -/
theorem performs (h : Invariant s) {e : Event} (hp : Performs s e t) : Invariant t := by
  cases hp with
  | hold => exact h
  | offer c => exact h.withEnv _
  | reset => exact reset h.valid _
  | release => exact h.withEnv _
  | accept c cs running idle offered fits => exact h.accept idle fits _
  | take running waiting => exact h.take waiting _
  | send b rest running head => exact h.send head _
  | arrive b running room => exact h.arrive b room
  | lose b running full => exact { h with }
  | timeout running armed => exact h.timeout armed
  | seq i t running notIdle notResult fetched runs =>
    exact h.moves (moves_of_exec runs) (commandHolds_of_exec fetched h.command runs)

end Invariant

/-- Settles O49: State.reset is a state at reset under a configuration R7 admits. -/
theorem resetMeetsTheInvariant : Obligations.ResetMeetsTheInvariant :=
  invariant_iff.2 (Invariant.reset (by decide) {})

/-- Settles O50: the step is the schedule's next event, and each event keeps the invariant. -/
theorem stepKeepsTheInvariant : Obligations.StepKeepsTheInvariant := by
  intro s t hs h
  have hinv := invariant_iff.1 hs
  refine invariant_iff.2 ?_
  obtain ⟨-, rfl | ⟨e, rest, -, hp⟩⟩ := step_performs h
  · exact hinv
  · exact (hinv.withEnv _).performs hp

/-! ## Results -/

/-- How a result comes about: success with no info, a failure with no payload, or a failed decode propagated. -/
inductive Reports (s : State) : Status → Payload → Info → Prop
  | success (p : Payload) : Reports s .ok p {}
  | failure (k : Status) (n : Info) (failed : k ≠ .ok) : Reports s k .none n
  | propagated (ended : s.phase = .interp) (failed : s.ps = .fail) : Reports s s.fKind .none s.fInfo

/-- An instruction reaches RESULT only by finishing. -/
theorem Moves.finished {s t : State} (h : Moves s t) (hs : s.phase ≠ .result) (ht : t.phase = .result) :
    ∃ k p n, t = finish k p n s ∧ Reports s k p n := by
  cases h with
  | hold => exact absurd ht hs
  | succeed p ready => exact ⟨_, _, _, rfl, .success p⟩
  | fail k n failed ready => exact ⟨_, _, _, rfl, .failure k n failed⟩
  | propagate ended failed => exact ⟨_, _, _, rfl, .propagated ended failed⟩
  | parse b rest t decoding reading head parsed =>
    cases ((parseByte_keeps parsed).phase.trans decoding).symm.trans ht
  | _ => cases ht

/-- Only a sequencer step reaches RESULT. -/
theorem Performs.finished {s t : State} {e : Event} (h : Performs s e t) (hs : s.phase ≠ .result)
    (ht : t.phase = .result) : ∃ k p n, t = finish k p n s ∧ Reports s k p n := by
  cases h with
  | seq i t running notIdle notResult fetched runs => exact (moves_of_exec runs).finished hs ht
  | reset => cases ht
  | accept => cases ht
  | take => cases ht
  | _ => exact absurd ht hs

/-- Under the invariant a decode that failed has a failure's kind, so no status is OK with an info. -/
theorem Reports.ok_or_empty {s : State} {k : Status} {p : Payload} {n : Info} (hinv : Invariant s)
    (h : Reports s k p n) : (k ≠ .ok → p = .none) ∧ (k = .ok → n = {}) := by
  cases h with
  | success p => exact ⟨fun h => absurd rfl h, fun _ => rfl⟩
  | failure k n failed => exact ⟨fun _ => rfl, fun h => absurd h failed⟩
  | propagated ended failed =>
    have hkind := (parserHolds_fail failed).1 hinv.parser
    exact ⟨fun _ => rfl, fun h => by simp [h] at hkind⟩

/-- Settles O48: the result is a finish's, and the invariant, which the step keeps, empties `txq` outside TX. -/
theorem resultsAreOkOrEmpty : Obligations.ResultsAreOkOrEmpty := by
  intro s t hs h hsphase htphase
  have hinv := invariant_iff.1 hs
  have hinv' := invariant_iff.1 (stepKeepsTheInvariant s t hs h)
  have htxq : t.txq = [] := hinv'.txq_empty (by simp [htphase])
  obtain ⟨-, rfl | ⟨e, rest, -, hp⟩⟩ := step_performs h
  · exact absurd htphase hsphase
  obtain ⟨k, p, n, rfl, hreports⟩ := hp.finished hsphase htphase
  obtain ⟨hpayload, hinfo⟩ := hreports.ok_or_empty (hinv.withEnv _)
  exact ⟨hpayload, hinfo, rfl, rfl, rfl, htxq⟩

end Sys2Proof.Machine
end

section
/-! What no step reads: `cur` at rest, `res` with no result waiting, `p_buf` from `p_n` on. Each operation, run
on a state with that taken out (`readPart`), answers what it answers on the state itself, up to the same. -/

namespace Sys2Proof.Machine

/-! ## The buffer from p_n on -/

/-- A buffer with its bytes from `n` on taken out. -/
def blankFrom (n : Nat) (bs : List Byte) : List Byte := bs.take n ++ List.replicate (bs.length - n) 0

theorem blankFrom_length (n : Nat) (bs : List Byte) : (blankFrom n bs).length = bs.length := by
  simp only [blankFrom, List.length_append, List.length_take, List.length_replicate]
  omega

/-- The bytes below `n` are still there. -/
theorem take_blankFrom {m n : Nat} (h : m ≤ n) (bs : List Byte) : (blankFrom n bs).take m = bs.take m := by
  rcases Nat.le_total n bs.length with hn | hn
  · rw [blankFrom, List.take_append_of_le_length (by simp; omega), List.take_take, Nat.min_eq_left h]
  · rw [blankFrom, List.take_of_length_le hn, Nat.sub_eq_zero_of_le hn, List.replicate_zero, List.append_nil]

/-- Taking out more covers what was taken out before. -/
theorem blankFrom_blankFrom {m n : Nat} (h : m ≤ n) (bs : List Byte) :
    blankFrom m (blankFrom n bs) = blankFrom m bs := by
  rw [blankFrom, take_blankFrom h, blankFrom_length, ← blankFrom]

theorem getElem?_blankFrom {k n : Nat} (h : k < n) (bs : List Byte) : (blankFrom n bs)[k]? = bs[k]? := by
  rw [← List.getElem?_take_of_lt (Nat.lt_succ_self k), take_blankFrom h,
    List.getElem?_take_of_lt (Nat.lt_succ_self k)]

/-- A byte stored at `n` is the first one no longer taken out. -/
theorem blankFrom_set {n : Nat} {bs : List Byte} (h : n < bs.length) (b : Byte) :
    blankFrom (n + 1) ((blankFrom n bs).set n b) = blankFrom (n + 1) (bs.set n b) := by
  have h' : n < (blankFrom n bs).length := by rwa [blankFrom_length]
  rw [blankFrom, take_succ_set h', take_blankFrom (Nat.le_refl n), ← take_succ_set h, List.length_set,
    blankFrom_length, ← List.length_set (i := n) (a := b), ← blankFrom]

/-! ## The part that is read -/

@[simp] theorem readPart_cfg (s : State) : (readPart s).cfg = s.cfg := rfl
@[simp] theorem readPart_phase (s : State) : (readPart s).phase = s.phase := rfl
@[simp] theorem readPart_ps (s : State) : (readPart s).ps = s.ps := rfl
@[simp] theorem readPart_pCmd (s : State) : (readPart s).pCmd = s.pCmd := rfl
@[simp] theorem readPart_pN (s : State) : (readPart s).pN = s.pN := rfl
@[simp] theorem readPart_env (s : State) : (readPart s).env = s.env := rfl
@[simp] theorem readPart_txq (s : State) : (readPart s).txq = s.txq := rfl
@[simp] theorem readPart_rxq (s : State) : (readPart s).rxq = s.rxq := rfl
theorem readPart_pBuf (s : State) : (readPart s).pBuf = blankFrom s.pN s.pBuf := rfl

/-- A command runs: neither IDLE nor RESULT. -/
def CommandRuns (s : State) : Prop := s.phase ≠ .idle ∧ s.phase ≠ .result

theorem readPart_cur {s : State} (h : CommandRuns s) : (readPart s).cur = s.cur := by
  simp [readPart, h.1, h.2]

theorem readPart_res {s : State} (h : s.resValid = true) : (readPart s).res = s.res := by
  simp [readPart, h]

/-- Two states that differ only in `cur`, `res` and `p_buf`, and in these only where nothing reads them. -/
theorem readPart_congr (s : State) {c₁ c₂ : HostCmd} {r₁ r₂ : Result} {b₁ b₂ : List Byte}
    (hcur : CommandRuns s → c₁ = c₂) (hres : s.resValid = true → r₁ = r₂)
    (hbuf : blankFrom s.pN b₁ = blankFrom s.pN b₂) :
    readPart { s with cur := c₁, res := r₁, pBuf := b₁ } =
      readPart { s with cur := c₂, res := r₂, pBuf := b₂ } := by
  have hcur' : (if s.phase = .idle ∨ s.phase = .result then ({ op := 0 } : HostCmd) else c₁) =
      if s.phase = .idle ∨ s.phase = .result then { op := 0 } else c₂ := by
    split
    · rfl
    case isFalse h => exact hcur (not_or.1 h)
  have hres' : (if s.resValid then r₁ else ({} : Result)) = if s.resValid then r₂ else {} := by
    split
    case isTrue h => exact hres h
    · rfl
  unfold blankFrom at hbuf
  simp only [readPart, hcur', hres', hbuf]

/-- Nothing is left to take out the second time. -/
theorem readPart_readPart (s : State) : readPart (readPart s) = readPart s :=
  readPart_congr s readPart_cur readPart_res (blankFrom_blankFrom (Nat.le_refl s.pN) s.pBuf)

/-- The part of an outcome's next state that is read, if there is one. -/
def readOutcome (o : StepOutcome) : Option State := (nextOf o).map readPart

theorem readOutcome_next_congr {s t : State} (h : readPart s = readPart t) :
    readOutcome (.next s) = readOutcome (.next t) := congrArg some h

/-- An operation that commutes with taking out what is not read. -/
theorem readOutcome_of_commutes {s t : State} (h : s = readPart t) :
    readOutcome (.next s) = readOutcome (.next t) :=
  readOutcome_next_congr (h ▸ readPart_readPart t)

/-! ## The operations of a command -/

/-- A finish overwrites `res`, and leaves `cur` where nothing reads it. -/
theorem readPart_finish (k : Status) (p : Payload) (n : Info) (s : State) :
    readPart (finish k p n (readPart s)) = readPart (finish k p n s) :=
  readPart_congr (finish k p n s) (fun h => absurd rfl h.2) (fun _ => rfl)
    (blankFrom_blankFrom (Nat.le_refl s.pN) s.pBuf)

/-- A decode start takes the whole buffer out. -/
theorem readPart_startDecode {s : State} (h : CommandRuns s) :
    readPart (startDecode (readPart s)) = readPart (startDecode s) :=
  readPart_congr (startDecode s) (fun _ => readPart_cur h) readPart_res
    (blankFrom_blankFrom (Nat.zero_le s.pN) s.pBuf)

/-- A change of the phase or of `txq` by a running command. -/
theorem readPart_setPhase {s : State} (h : CommandRuns s) (p : Phase) (q : List Byte) :
    readPart { readPart s with txq := q, phase := p } = readPart { s with txq := q, phase := p } :=
  readPart_congr { s with txq := q, phase := p } (fun _ => readPart_cur h) readPart_res
    (blankFrom_blankFrom (Nat.le_refl s.pN) s.pBuf)

theorem readPart_checkStep {s : State} (h : CommandRuns s) (p : Plan) :
    readPart (checkStep p (readPart s)) = readPart (checkStep p s) := by
  unfold checkStep launch
  split
  · exact readPart_finish ..
  · split
    · exact readPart_setPhase h ..
    · split
      · exact readPart_startDecode h
      · exact readPart_setPhase h ..

theorem readPart_txStep {s : State} (h : CommandRuns s) (p : Plan) :
    readPart (txStep p (readPart s)) = readPart (txStep p s) := by
  unfold txStep
  rw [readPart_txq]
  split
  · split
    · exact readPart_startDecode h
    · exact readPart_finish ..
  · exact readPart_readPart s

/-! ## The parser -/

theorem readHeader_readPart (here next : PState) (b : Byte) (s : State) :
    readHeader here next b (readPart s) = readPart (readHeader here next b s) := by
  unfold readHeader
  rw [apply_ite readPart]
  rfl

theorem readLength_readPart (b : Byte) (s : State) :
    readLength b (readPart s) = readPart (readLength b s) := by
  unfold readLength
  rw [apply_ite readPart]
  rfl

theorem readChecksum_readPart (b : Byte) (s : State) :
    readChecksum b (readPart s) = readPart (readChecksum b s) := by
  unfold readChecksum
  simp only [apply_ite readPart]
  rfl

/-- RPAR stores its byte at `p_n`, the first place nothing reads. -/
theorem readParam_readPart (b : Byte) (s : State) :
    readOutcome (outcomeOf (readParam b (readPart s))) = readOutcome (outcomeOf (readParam b s)) := by
  unfold readParam
  rw [readPart_pBuf, blankFrom_length, readPart_pN]
  split
  case isTrue hroom =>
    exact readOutcome_next_congr (readPart_congr
      (rearm { s with
        pN := s.pN + 1
        pSum := s.pSum + b
        ps := if s.pN + 1 = s.pLen.toNat - 2 then .rchk else .rpar })
      readPart_cur readPart_res (blankFrom_set hroom b))
  case isFalse => rfl

theorem parseByte_readPart (b : Byte) (s : State) :
    readOutcome (outcomeOf (parseByte b (readPart s))) = readOutcome (outcomeOf (parseByte b s)) := by
  unfold parseByte
  rw [readPart_ps]
  cases s.ps with
  | ah1 => exact readOutcome_of_commutes (readHeader_readPart ..)
  | ah2 => exact readOutcome_of_commutes (readHeader_readPart ..)
  | rid => exact readOutcome_of_commutes rfl
  | rlen => exact readOutcome_of_commutes (readLength_readPart b s)
  | rcmd => exact readOutcome_of_commutes rfl
  | rpar => exact readParam_readPart b s
  | rchk => exact readOutcome_of_commutes (readChecksum_readPart b s)
  | _ => rfl

theorem popAndParse_readPart (s : State) :
    readOutcome (popAndParse (readPart s)) = readOutcome (popAndParse s) := by
  unfold popAndParse
  rw [readPart_rxq]
  split
  · exact readOutcome_next_congr (readPart_readPart s)
  case h_2 b rest _ => exact parseByte_readPart b { s with rxq := rest }

theorem rxStep_readPart {s : State} (h : CommandRuns s) :
    readOutcome (rxStep (readPart s)) = readOutcome (rxStep s) := by
  have ended : readOutcome (.next { readPart s with phase := .interp }) =
      readOutcome (.next { s with phase := .interp }) :=
    readOutcome_next_congr (readPart_setPhase h .interp s.txq)
  unfold rxStep
  rw [readPart_ps]
  split
  · exact ended
  · exact ended
  · rfl
  · exact popAndParse_readPart s

/-! ## The interpretations, which read the buffer below p_n alone -/

theorem paramAt_readPart (s : State) (k : Nat) : paramAt (readPart s) k = paramAt s k := by
  unfold paramAt
  rw [readPart_pN]
  split
  case isTrue h => exact getElem?_blankFrom h s.pBuf
  case isFalse => rfl

theorem decodedParams_readPart (s : State) : decodedParams (readPart s) = decodedParams s := by
  unfold decodedParams
  rw [readPart_pN, readPart_pBuf, blankFrom_length, take_blankFrom (Nat.le_refl _)]

theorem paramHalf_readPart (s : State) (k : Nat) : paramHalf (readPart s) k = paramHalf s k := by
  unfold paramHalf
  rw [paramAt_readPart, paramAt_readPart]

theorem groupPositions_readPart (s : State) (w off n k : Nat) :
    groupPositions (readPart s) w off n k = groupPositions s w off n k := by
  induction n generalizing k with
  | zero => rfl
  | succ n ih => simp only [groupPositions, paramHalf_readPart, ih]

theorem syncPayload_readPart (w off n : Nat) (s : State) :
    syncPayload w off n (readPart s) = syncPayload w off n s := by
  simp only [syncPayload, paramStamp, paramAt_readPart, groupPositions_readPart]

/-- A finish with the value read, or the same fault. -/
theorem withParam_readPart {α : Type} (v : Option α) (f : α → Payload) (s : State) :
    readOutcome (withParam v fun a => finishOk (f a) (readPart s)) =
      readOutcome (withParam v fun a => finishOk (f a) s) := by
  cases v with
  | none => rfl
  | some a => exact readOutcome_next_congr (readPart_finish ..)

theorem interpretPacket_readPart (s : State) :
    readOutcome (interpretPacket (readPart s)) = readOutcome (interpretPacket s) := by
  unfold interpretPacket
  rw [decodedParams_readPart]
  exact withParam_readPart ..

theorem interpretStatus_readPart (s : State) :
    readOutcome (interpretStatus (readPart s)) = readOutcome (interpretStatus s) := by
  unfold interpretStatus
  rw [readPart_pCmd, readPart_cfg]
  split
  · exact readOutcome_next_congr (readPart_finish ..)
  · exact readOutcome_next_congr (readPart_finish ..)

theorem interpretRead_readPart (s : State) :
    readOutcome (interpretRead (readPart s)) = readOutcome (interpretRead s) := by
  unfold interpretRead
  rw [paramAt_readPart, paramHalf_readPart, decodedParams_readPart, readPart_pN]
  split
  · exact readOutcome_next_congr (readPart_finish ..)
  all_goals exact withParam_readPart ..

theorem interpretSyncRead_readPart (n : Nat) (w : Byte) (s : State) :
    readOutcome (interpretSyncRead n w (readPart s)) = readOutcome (interpretSyncRead n w s) := by
  unfold interpretSyncRead
  rw [syncPayload_readPart, readPart_pN, readPart_cfg, readPart_pCmd]
  split
  · exact readOutcome_next_congr (readPart_finish ..)
  · split
    · exact readOutcome_next_congr (readPart_finish ..)
    · exact withParam_readPart _ id s

theorem interpretOf_readPart (i : Instr) (s : State) :
    readOutcome (interpretOf i (readPart s)) = readOutcome (interpretOf i s) := by
  cases i
  case recv => exact interpretPacket_readPart s
  case ping | writeReg | torqueOn | torqueOff | setPosition => exact interpretStatus_readPart s
  case readReg | readPosition => exact interpretRead_readPart s
  case syncRead => exact interpretSyncRead_readPart ..
  all_goals rfl

/-! ## Instructions -/

theorem runCommand_readPart {s : State} (h : CommandRuns s) (p : Plan) (i : Instr) :
    readOutcome (runCommand p (interpretOf i) (readPart s)) = readOutcome (runCommand p (interpretOf i) s) := by
  unfold runCommand
  rw [readPart_phase]
  split
  case h_1 hp => exact absurd hp h.1
  case h_2 => exact readOutcome_next_congr (readPart_checkStep h p)
  case h_3 => exact readOutcome_next_congr (readPart_txStep h p)
  case h_4 => exact rxStep_readPart h
  case h_5 =>
    unfold interpStep
    rw [readPart_ps]
    split
    · exact readOutcome_next_congr (readPart_finish ..)
    · exact interpretOf_readPart i s
    · rfl
  case h_6 hp => exact absurd hp h.2

theorem runIllegal_readPart {s : State} (h : CommandRuns s) (op : Byte) :
    readOutcome (runIllegal op (readPart s)) = readOutcome (runIllegal op s) := by
  unfold runIllegal
  rw [readPart_phase]
  split
  case h_1 hp => exact absurd hp h.1
  case h_2 => exact readOutcome_next_congr (readPart_finish ..)
  case h_6 hp => exact absurd hp h.2
  all_goals rfl

theorem exec_readPart {s : State} {i : Instr} (h : CommandRuns s) (hi : IsHostInstr s.cfg i) :
    readOutcome (exec i (readPart s)) = readOutcome (exec i s) := by
  rcases hi with ⟨reply, hr⟩ | rfl | rfl | rfl | rfl
  · obtain ⟨p, hp, -⟩ := plan_of_responseExpected hr
    rw [exec_eq_runCommand hp, exec_eq_runCommand (s := readPart s) hp]
    exact runCommand_readPart h p i
  all_goals exact runIllegal_readPart h _

/-! ## The events -/

theorem sequencerEvent_readPart (s : State) :
    readOutcome (sequencerEvent (readPart s)) = readOutcome (sequencerEvent s) := by
  unfold sequencerEvent
  rw [readPart_phase]
  split
  case h_1 | h_2 => exact readOutcome_next_congr (readPart_readPart s)
  case h_3 hidle hresult =>
    have hruns : CommandRuns s := ⟨hidle, hresult⟩
    have hfetch : fetch (readPart s) = fetch s := by
      unfold fetch
      rw [readPart_cur hruns, readPart_cfg]
    rw [hfetch]
    split
    case h_1 i hi => exact exec_readPart hruns (fetch_ok hi).2.2
    case h_2 => rfl

/-- An acceptance overwrites `cur`. -/
theorem acceptEvent_readPart (s : State) :
    readOutcome (acceptEvent (readPart s)) = readOutcome (acceptEvent s) := by
  unfold acceptEvent
  rw [readPart_phase, readPart_env]
  split
  case h_1 c cs _ _ =>
    split
    case isTrue =>
      exact readOutcome_next_congr (readPart_congr
        { s with cur := c, phase := .check, env := { s.env with offered := cs } }
        (fun _ => rfl) readPart_res (blankFrom_blankFrom (Nat.le_refl s.pN) s.pBuf))
    case isFalse => rfl
  case h_2 => exact readOutcome_next_congr (readPart_readPart s)

/-- The host takes a result only where it is waiting (R22), and there `res` is read. -/
theorem takeEvent_readPart {s : State} (h : Invariant s) :
    readPart (takeEvent (readPart s)) = readPart (takeEvent s) := by
  unfold takeEvent
  rw [readPart_phase]
  split
  case isTrue hp =>
    have hvalid : s.resValid = true := by simp [h.resultValid, hp]
    rw [readPart_res hvalid, readPart_env]
    exact readPart_congr
      { s with resValid := false, phase := .idle, env := { s.env with taken := s.env.taken ++ [s.res] } }
      (fun h => absurd rfl h.1) (fun h => absurd h Bool.false_ne_true)
      (blankFrom_blankFrom (Nat.le_refl s.pN) s.pBuf)
  case isFalse => exact readPart_readPart s

theorem sendEvent_readPart (s : State) : sendEvent (readPart s) = readPart (sendEvent s) := by
  unfold sendEvent
  rw [readPart_txq]
  split <;> rfl

theorem arriveEvent_readPart (b : Byte) (s : State) :
    arriveEvent b (readPart s) = readPart (arriveEvent b s) := by
  unfold arriveEvent
  rw [apply_ite readPart]
  rfl

theorem timeoutEvent_readPart (s : State) : timeoutEvent (readPart s) = readPart (timeoutEvent s) := by
  unfold timeoutEvent
  rw [apply_ite readPart]
  rfl

/-- No event reads what is taken out. -/
theorem perform_readPart {s : State} (h : Invariant s) (e : Event) :
    readOutcome (perform e (readPart s)) = readOutcome (perform e s) := by
  have held : readOutcome (.next (readPart s)) = readOutcome (.next s) :=
    readOutcome_next_congr (readPart_readPart s)
  unfold perform
  rw [readPart_env]
  cases e with
  | offer c => exact readOutcome_of_commutes rfl
  | assertReset => rfl
  | releaseReset => exact readOutcome_of_commutes rfl
  | accept => simp only; split; exacts [held, acceptEvent_readPart s]
  | take => simp only; split; exacts [held, readOutcome_next_congr (takeEvent_readPart h)]
  | send => simp only; split; exacts [held, readOutcome_of_commutes (sendEvent_readPart s)]
  | arrive b => simp only; split; exacts [held, readOutcome_of_commutes (arriveEvent_readPart b s)]
  | timeout => simp only; split; exacts [held, readOutcome_of_commutes (timeoutEvent_readPart s)]
  | seq => simp only; split; exacts [held, sequencerEvent_readPart s]

/-- No step reads what is taken out. -/
theorem step_readPart {s : State} (h : Invariant s) :
    readOutcome (step (readPart s)) = readOutcome (step s) := by
  cases hs : s.env.schedule with
  | nil =>
    rw [step_of_empty h.valid hs, step_of_empty (s := readPart s) h.valid hs]
    exact readOutcome_next_congr (readPart_readPart s)
  | cons e rest =>
    rw [step_of_event h.valid hs, step_of_event (s := readPart s) h.valid hs]
    exact perform_readPart (h.withEnv { s.env with schedule := rest }) e

/-- Settles O58: each of the two steps answers, up to what is not read, what the step of their common read part
answers. -/
theorem unreadStateMattersToNoStep : Obligations.UnreadStateMattersToNoStep := by
  intro s₁ s₂ h₁ h₂ heq
  calc readOutcome (step s₁)
      _ = readOutcome (step (readPart s₁)) := (step_readPart (invariant_iff.1 h₁)).symm
      _ = readOutcome (step (readPart s₂)) := by rw [heq]
      _ = readOutcome (step s₂) := step_readPart (invariant_iff.1 h₂)

end Sys2Proof.Machine
end

section
/-! Byte order (20_memory.md R52, R53): what splitting and joining do to the numbers. Two bytes or four, each below
256, never reach past the width they are joined into, so the joins lose nothing. -/

namespace Sys2Proof.Machine

@[simp] theorem toNat_lo8 (v : Half) : (lo8 v).toNat = v.toNat % 256 := by
  simp [lo8]

@[simp] theorem toNat_hi8 (v : Half) : (hi8 v).toNat = v.toNat / 256 := by
  have hv := v.isLt
  simp only [hi8, BitVec.extractLsb'_toNat, Nat.shiftRight_eq_div_pow]
  omega

@[simp] theorem toNat_le16 (a b : Byte) : (le16 a b).toNat = a.toNat + 256 * b.toNat :=
  (BitVec.toNat_ofNat _ _).trans (Nat.mod_eq_of_lt (by omega))

@[simp] theorem toNat_le32 (a b c d : Byte) :
    (le32 a b c d).toNat = a.toNat + 2 ^ 8 * b.toNat + 2 ^ 16 * c.toNat + 2 ^ 24 * d.toNat :=
  (BitVec.toNat_ofNat _ _).trans (Nat.mod_eq_of_lt (by omega))

@[simp] theorem le16_lo8_hi8 (v : Half) : le16 (lo8 v) (hi8 v) = v := by
  apply BitVec.eq_of_toNat_eq
  calc (le16 (lo8 v) (hi8 v)).toNat
      _ = v.toNat % 256 + 256 * (v.toNat / 256) := by rw [toNat_le16, toNat_lo8, toNat_hi8]
      _ = v.toNat := Nat.mod_add_div v.toNat 256

@[simp] theorem lo8_le16 (a b : Byte) : lo8 (le16 a b) = a := by
  apply BitVec.eq_of_toNat_eq
  calc (lo8 (le16 a b)).toNat
      _ = (a.toNat + 256 * b.toNat) % 256 := by rw [toNat_lo8, toNat_le16]
      _ = a.toNat := by rw [Nat.add_mul_mod_self_left, Nat.mod_eq_of_lt a.isLt]

@[simp] theorem hi8_le16 (a b : Byte) : hi8 (le16 a b) = b := by
  apply BitVec.eq_of_toNat_eq
  calc (hi8 (le16 a b)).toNat
      _ = (a.toNat + 256 * b.toNat) / 256 := by rw [toNat_hi8, toNat_le16]
      _ = b.toNat := by
        rw [Nat.add_mul_div_left _ _ (by decide), Nat.div_eq_of_lt a.isLt, Nat.zero_add]

/-- Settles O8: split and join are inverse because they are quotient, remainder and sum by 256 on the numbers. -/
theorem littleEndianSplitAndJoin : Obligations.LittleEndianSplitAndJoin := by
  intro v a b c d
  exact ⟨le16_lo8_hi8 v, lo8_le16 a b, hi8_le16 a b, toNat_le16 a b, toNat_le32 a b c d⟩

end Sys2Proof.Machine
end

section
/-! The frame (30_encoding.md R70): each byte at its offset, and the decoder's reading of a whole frame, both
ways. -/

namespace Sys2Proof.Machine

/-! ## The bytes of a frame -/

/-- The length byte of a frame DXPC can carry is its number: nothing wraps (R71). -/
theorem toNat_lengthByte {n : Nat} (h : n ≤ 253) : (lengthByte n).toNat = 2 + n :=
  (BitVec.toNat_ofNat _ _).trans (Nat.mod_eq_of_lt (by omega))

/-- A length byte of 2 or more is the length byte of the count it declares. -/
theorem lengthByte_of_toNat {b : Byte} {n : Nat} (h : b.toNat = 2 + n) : lengthByte n = b := by
  rw [lengthByte, ← h, BitVec.ofNat_toNat, BitVec.setWidth_eq]

/-- A frame as the parser and the decoder meet it: five bytes, the parameters, the checksum (R70). -/
theorem encodeFrame_eq_cons (id cmd : Byte) (ps : List Byte) :
    encodeFrame id cmd ps =
      0xFF :: 0xFF :: id :: lengthByte ps.length :: cmd ::
        (ps ++ [chk8 id (lengthByte ps.length) cmd ps]) := rfl

/-- Settles O5: five bytes stand before the parameters, and one after them. -/
theorem frameBytesStandAtTheirOffsets : Obligations.FrameBytesStandAtTheirOffsets := by
  intro id cmd ps h
  have at_body : ∀ k, (encodeFrame id cmd ps)[5 + k]? =
      (ps ++ [chk8 id (lengthByte ps.length) cmd ps])[k]? := by
    intro k
    rw [encodeFrame_eq_cons, Nat.add_comm]
    rfl
  refine ⟨encodeFrame_length id cmd ps, rfl, rfl, rfl, congrArg some (toNat_lengthByte h), rfl, ?_, ?_⟩
  · intro k hk
    rw [at_body, List.getElem?_append_left hk]
  · rw [at_body, List.getElem?_concat_length]
    rfl

/-! ## The decoder reads frames -/

/-- The decoder gives a frame the meaning its ID, command and parameters have as a request. -/
theorem decode_encodeFrame (c : Config) (id cmd : Byte) {ps : List Byte} (h : ps.length ≤ 253) :
    decode c (.frame (encodeFrame id cmd ps)) = decodeRequest c id cmd ps := by
  have hlen := toNat_lengthByte h
  have hn : 2 + ps.length - 2 = ps.length := Nat.add_sub_cancel_left 2 _
  have hbody : decodeBody c id (lengthByte ps.length) cmd
        (ps ++ [chk8 id (lengthByte ps.length) cmd ps]) =
      (decodeRequest c id cmd ps).map fun i => (i, []) := by
    unfold decodeBody
    rw [if_neg (by omega), hlen, hn, List.drop_left, List.take_left]
    simp only [if_true]
    cases decodeRequest c id cmd ps <;> rfl
  simp only [decode, encodeFrame_eq_cons, decodeFrame, and_self, if_true, hbody]
  cases decodeRequest c id cmd ps <;> rfl

/-- A frame body that decodes is parameters, their checksum, and what stands after the frame. -/
theorem decodeBody_ok {c : Config} {id len cmd : Byte} {rest after : List Byte} {i : Instr}
    (h : decodeBody c id len cmd rest = .ok (i, after)) :
    ∃ ps, len = lengthByte ps.length ∧ rest = ps ++ chk8 id len cmd ps :: after ∧
      decodeRequest c id cmd ps = .ok i := by
  unfold decodeBody at h
  split at h
  case isTrue => cases h
  case isFalse hlong =>
  split at h
  case h_1 => cases h
  case h_2 chk after' hdrop =>
  split at h
  case isFalse => cases h
  case isTrue hchk =>
  split at h
  case h_2 => cases h
  case h_1 j hreq =>
    cases h
    have hcount : (rest.take (len.toNat - 2)).length = len.toNat - 2 := by
      have := congrArg List.length hdrop
      rw [List.length_drop, List.length_cons] at this
      rw [List.length_take]
      omega
    refine ⟨rest.take (len.toNat - 2), ?_, ?_, hreq⟩
    · exact (lengthByte_of_toNat (by omega)).symm
    · rw [← hchk, ← hdrop, List.take_append_drop]

/-- A byte sequence that decodes is the frame of some fields that decode as its request. -/
theorem decode_frame_ok {c : Config} {bs : List Byte} {i : Instr} (h : decode c (.frame bs) = .ok i) :
    ∃ id cmd ps, bs = encodeFrame id cmd ps ∧ decodeRequest c id cmd ps = .ok i := by
  simp only [decode] at h
  split at h
  case h_2 | h_3 => cases h
  case h_1 j hframe =>
  cases h
  unfold decodeFrame at hframe
  split at hframe
  case h_2 => cases hframe
  case h_1 h1 h2 id len cmd rest =>
  split at hframe
  case isFalse => cases hframe
  case isTrue hheader =>
    obtain ⟨rfl, rfl⟩ := hheader
    obtain ⟨ps, rfl, rfl, hreq⟩ := decodeBody_ok hframe
    exact ⟨id, cmd, ps, rfl, hreq⟩

/-! ## The entries of SYNC_WRITE -/

/-- Two bytes to each value of an entry (R52). -/
theorem length_flatMap_halfBytes (vs : List Half) : (vs.flatMap halfBytes).length = 2 * vs.length := by
  induction vs with
  | nil => rfl
  | cons v vs ih => rw [List.flatMap_cons, List.length_append, ih, List.length_cons, halfBytes]; simp; omega

/-- Values are read back from their bytes. -/
theorem halvesOf_flatMap_halfBytes (vs : List Half) : halvesOf (vs.flatMap halfBytes) = some vs := by
  induction vs with
  | nil => rfl
  | cons v vs ih =>
    rw [List.flatMap_cons]
    simp only [halfBytes, List.cons_append, List.nil_append, halvesOf, le16_lo8_hi8]
    rw [ih]
    rfl

/-- Bytes read as values are the bytes of those values. -/
theorem flatMap_halfBytes_of_halvesOf {bs : List Byte} {vs : List Half} (h : halvesOf bs = some vs) :
    vs.flatMap halfBytes = bs := by
  induction bs using halvesOf.induct generalizing vs with
  | case1 => cases h; rfl
  | case2 b => cases h
  | case3 b0 b1 rest ih =>
    simp only [halvesOf, Option.map_eq_some_iff] at h
    obtain ⟨us, hus, rfl⟩ := h
    rw [List.flatMap_cons, ih hus, halfBytes, lo8_le16, hi8_le16]
    rfl

/-- Entries of `w` bytes of values each are read back from their bytes, with fuel for every byte. -/
theorem entriesOf_flatMap_entryBytes {w : Nat} {es : List Entry} (hw : ∀ e ∈ es, 2 * e.vals.length = w)
    {fuel : Nat} (hfuel : (es.flatMap entryBytes).length ≤ fuel) :
    entriesOf w fuel (es.flatMap entryBytes) = some es := by
  induction es generalizing fuel with
  | nil => cases fuel <;> rfl
  | cons e es ih =>
    have hvals : (e.vals.flatMap halfBytes).length = w := by
      rw [length_flatMap_halfBytes, hw e List.mem_cons_self]
    rw [List.flatMap_cons, entryBytes, List.cons_append] at hfuel ⊢
    rw [List.length_cons, List.length_append] at hfuel
    cases fuel with
    | zero => omega
    | succ fuel =>
      have htail := ih (fun e he => hw e (List.mem_cons_of_mem _ he)) (fuel := fuel) (by omega)
      rw [entriesOf, if_neg (by rw [List.length_append]; omega), ← hvals, List.take_left, List.drop_left,
        halvesOf_flatMap_halfBytes, hvals, htail]

/-- Bytes read as entries are the bytes of those entries. -/
theorem flatMap_entryBytes_of_entriesOf {w fuel : Nat} {bs : List Byte} {es : List Entry}
    (h : entriesOf w fuel bs = some es) : es.flatMap entryBytes = bs := by
  induction fuel generalizing bs es with
  | zero =>
    cases bs with
    | nil => cases h; rfl
    | cons b bs => cases h
  | succ fuel ih =>
    cases bs with
    | nil => cases h; rfl
    | cons eid rest =>
      rw [entriesOf] at h
      split at h
      case isTrue => cases h
      case isFalse =>
      split at h
      case h_2 => cases h
      case h_1 vals tail hvals htail =>
        cases h
        rw [List.flatMap_cons, ih htail, entryBytes, flatMap_halfBytes_of_halvesOf hvals, List.cons_append,
          List.take_append_drop]

/-! ## The five requests -/

theorem decodeSyncWrite_syncWriteParams {addr width : Byte} {es : List Entry}
    (hw : widthsMatch width es = true) :
    decodeSyncWrite (syncWriteParams addr width es) = .ok (.wireSyncWrite addr width es) := by
  have hw' : ∀ e ∈ es, 2 * e.vals.length = width.toNat := by simpa [widthsMatch] using hw
  simp only [syncWriteParams, List.cons_append, List.nil_append, decodeSyncWrite,
    entriesOf_flatMap_entryBytes hw' (Nat.le_refl _)]

/-- With five distinct opcodes, each differs from those the decoder tests before it (log 21). -/
theorem opcodes_ne {c : Config} (h : c.distinctOpcodes = true) :
    c.opRead ≠ c.opPing ∧ (c.opWrite ≠ c.opPing ∧ c.opWrite ≠ c.opRead) ∧
      (c.opSyncWrite ≠ c.opPing ∧ c.opSyncWrite ≠ c.opRead ∧ c.opSyncWrite ≠ c.opWrite) ∧
      (c.opSyncRead ≠ c.opPing ∧ c.opSyncRead ≠ c.opRead ∧ c.opSyncRead ≠ c.opWrite ∧
        c.opSyncRead ≠ c.opSyncWrite) := by
  simp only [Config.distinctOpcodes, decide_eq_true_eq, List.nodup_cons, List.mem_cons, not_or] at h
  obtain ⟨⟨hpr, hpw, hpsw, hpsr, -⟩, ⟨hrw, hrsw, hrsr, -⟩, ⟨hwsw, hwsr, -⟩, ⟨hswsr, -⟩, -⟩ := h
  exact ⟨Ne.symm hpr, ⟨Ne.symm hpw, Ne.symm hrw⟩, ⟨Ne.symm hpsw, Ne.symm hrsw, Ne.symm hwsw⟩,
    Ne.symm hpsr, Ne.symm hrsr, Ne.symm hwsr, Ne.symm hswsr⟩

/-- A frame within MAX_PARAMS has a length byte. -/
theorem length_le_of_paramsFit {c : Config} {ps : List Byte} (hv : c.valid = true)
    (h : paramsFit c ps = true) : ps.length ≤ 253 := by
  obtain ⟨-, -, -, hmax, -⟩ := (Config.valid_iff c).1 hv
  exact Nat.le_trans (of_decide_eq_true h) hmax

/-- A well-formed record's instruction is read back from it. -/
theorem decode_command {c : Config} {i : Instr} {r : HostCmd} (henc : encode c i = .command r)
    (hi : instrOfOp r = i) (hr : r.wellFormed = true) : decode c (encode c i) = .ok i := by
  rw [henc, decode, decodeCommand, if_pos hr, hi]

/-- A well-formed wire frame's instruction is read back from it, if its parameters are read back. -/
theorem decode_wireFrame {c : Config} {i : Instr} {id cmd : Byte} {ps : List Byte}
    (henc : encode c i = .frame (encodeFrame id cmd ps)) (hv : c.valid = true)
    (hfit : paramsFit c ps = true) (hreq : decodeRequest c id cmd ps = .ok i) :
    decode c (encode c i) = .ok i := by
  rw [henc, decode_encodeFrame c id cmd (length_le_of_paramsFit hv hfit), hreq]

/-- Settles O1: a record by the op it carries, a wire frame by its opcode, which no test before it takes. -/
theorem decodeReadsEveryEncoding : Obligations.DecodeReadsEveryEncoding := by
  intro c i h
  cases i
  case send | writeReg => exact decode_command rfl rfl (Bool.and_eq_true_iff.2 ⟨h, rfl⟩)
  case syncRead => exact decode_command rfl rfl (Bool.and_eq_true_iff.2 ⟨rfl, h⟩)
  case wirePing id =>
    simp only [Instr.wellFormed, Bool.and_eq_true] at h
    exact decode_wireFrame rfl h.1 (by simp [paramsFit]) (by simp [decodeRequest, decodePing])
  case wireRead id addr count =>
    simp only [Instr.wellFormed, Bool.and_eq_true] at h
    obtain ⟨⟨hv, hd⟩, hfit⟩ := h
    obtain ⟨hne, -⟩ := opcodes_ne hd
    exact decode_wireFrame rfl hv hfit (by simp [decodeRequest, decodeRead, readParams, hne])
  case wireWrite id addr data =>
    simp only [Instr.wellFormed, Bool.and_eq_true] at h
    obtain ⟨⟨hv, hd⟩, hfit⟩ := h
    obtain ⟨-, ⟨hne, hne'⟩, -⟩ := opcodes_ne hd
    exact decode_wireFrame rfl hv hfit (by simp [decodeRequest, decodeWrite, writeParams, hne, hne'])
  case wireSyncWrite addr width es =>
    simp only [Instr.wellFormed, Bool.and_eq_true] at h
    obtain ⟨⟨⟨⟨hv, hd⟩, hfit⟩, hw⟩, -⟩ := h
    obtain ⟨-, -, ⟨hp, hr, hwr⟩, -⟩ := opcodes_ne hd
    refine decode_wireFrame rfl hv hfit ?_
    simp only [decodeRequest, hp, hr, hwr, if_false, if_true, decodeSyncWrite_syncWriteParams hw]
  case wireSyncRead ids =>
    simp only [Instr.wellFormed, Bool.and_eq_true] at h
    obtain ⟨⟨⟨hv, hd⟩, hfit⟩, -⟩ := h
    obtain ⟨-, -, -, hp, hr, hwr, hsw⟩ := opcodes_ne hd
    exact decode_wireFrame rfl hv hfit (by simp [decodeRequest, hp, hr, hwr, hsw])
  all_goals exact decode_command rfl rfl rfl

/-- A request that decodes is encoded with the command byte, target and parameters it was read from. -/
theorem encode_of_decodeRequest {c : Config} {id cmd : Byte} {ps : List Byte} {i : Instr}
    (h : decodeRequest c id cmd ps = .ok i) : encode c i = .frame (encodeFrame id cmd ps) := by
  unfold decodeRequest at h
  split at h
  case isTrue hcmd =>
    subst hcmd
    unfold decodePing at h
    split at h <;> cases h
    rfl
  split at h
  case isTrue hcmd =>
    subst hcmd
    unfold decodeRead at h
    split at h <;> cases h
    rfl
  split at h
  case isTrue hcmd =>
    subst hcmd
    unfold decodeWrite at h
    split at h <;> cases h
    rfl
  split at h
  case isTrue hcmd =>
    split at h
    case isFalse => cases h
    case isTrue hid =>
    subst hcmd hid
    unfold decodeSyncWrite at h
    split at h
    case h_2 => cases h
    case h_1 addr width rest =>
    split at h
    case h_2 => cases h
    case h_1 es hes =>
      cases h
      rw [← flatMap_entryBytes_of_entriesOf hes]
      rfl
  split at h
  case isTrue hcmd =>
    split at h
    case isFalse => cases h
    case isTrue hid =>
      subst hcmd hid
      cases h
      rfl
  case isFalse => cases h

/-- Settles O2: the bytes are a frame's, and the request read from its fields is encoded with those fields. -/
theorem encodeRestoresEveryDecodedFrame : Obligations.EncodeRestoresEveryDecodedFrame := by
  intro c bs i h
  obtain ⟨id, cmd, ps, rfl, hreq⟩ := decode_frame_ok h
  exact encode_of_decodeRequest hreq

/-! ## Host records and the spec's words -/

/-- Settles O3: a record of R83 is not rejected, and `op` alone selects the instruction. -/
theorem recordsDecodeByTheirOp : Obligations.RecordsDecodeByTheirOp := by
  intro c hdata hids
  have hok : decodeCommand c = .ok (instrOfOp c) :=
    if_pos (by simp [HostCmd.wellFormed, sequenceFits, hdata, hids])
  rw [hok]
  refine ⟨?_, ?_, ?_, ?_, ?_, ?_, ?_, ?_, ?_, ?_, ?_, ?_, ?_, ?_, ?_, ?_⟩
  all_goals
    intro hop
    simp [instrOfOp, hop]

/-- Settles O4: the first word is a frame the encoder writes; the third has another checksum than its fields. -/
theorem specWordsDecode : Obligations.SpecWordsDecode := by
  intro c hwrite hping hread
  refine ⟨?_, rfl, ?_⟩
  · have hframe : [0xFF, 0xFF, 0x01, 0x05, 0x03, 0x1E, 0x96, 0x02, 0x40] =
        encodeFrame 0x01 0x03 [0x1E, 0x96, 0x02] := by decide
    rw [hframe, decode_encodeFrame c _ _ (by decide)]
    simp only [decodeRequest, hwrite, hping.symm, hread.symm, if_false, if_true, decodeWrite]
  · have hchk : (0x41 : Byte) ≠ chk8 0x01 0x05 0x03 [0x1E, 0x96, 0x02] := by decide
    have hbody : decodeBody c 0x01 0x05 0x03 [0x1E, 0x96, 0x02, 0x41] = .error .badChecksum :=
      (if_neg (by decide)).trans (if_neg hchk)
    simp only [decode, decodeFrame, and_self, if_true, hbody]

end Sys2Proof.Machine
end

section
/-! The commands by phase (42_session.md R160): what CHECK, TX and INTERP come to for a command with a plan, each
check as a condition on its operands, and the rules of the session commands. -/

namespace Sys2Proof.Machine

open Sys2Proof.Claims

/-! ## A command's step, by phase -/

section Phases

variable {i : Instr} {s : State} {p : Plan}

/-- CHECK runs the plan's check and launch. -/
theorem exec_check (hplan : planOf s.cfg i = some p) (hp : s.phase = .check) :
    exec i s = .next (checkStep p s) := by
  rw [exec_eq_runCommand hplan, runCommand, hp]

/-- The first failing check finishes the command with its reason (R160, R204). -/
theorem exec_check_refused (hplan : planOf s.cfg i = some p) (hp : s.phase = .check) {r : Reason}
    (hv : p.verdict = some r) : exec i s = .next (malformedState s (reasonCode r)) := by
  rw [exec_check hplan hp, checkStep, hv]
  rfl

/-- With every check passed the request is queued whole (R140). -/
theorem exec_check_queued (hplan : planOf s.cfg i = some p) (hp : s.phase = .check)
    (hv : p.verdict = none) {f : List Byte} (hf : p.request = some f) :
    exec i s = .next (queuedState s f) := by
  rw [exec_check hplan hp, checkStep, hv]
  simp only [launch, hf]
  rfl

/-- TX drains, whatever the command (R149). -/
theorem drains_of_plan (hplan : planOf s.cfg i = some p) (hp : s.phase = .tx) {reply : Bool}
    (hreply : p.reply = reply) : drains i reply s := by
  have htx : exec i s = .next (txStep p s) := by rw [exec_eq_runCommand hplan, runCommand, hp]
  subst hreply
  unfold drains
  rw [htx, txStep]
  refine ⟨fun hq => by rw [if_neg hq], fun hq hr => ?_, fun hq hr => ?_⟩
  · rw [if_pos hq, if_pos hr]
    rfl
  · rw [if_pos hq, if_neg (by simp [hr])]
    rfl

/-- INTERP passes a failed decode on (R164). -/
theorem exec_interp_fail (hplan : planOf s.cfg i = some p) (hp : s.phase = .interp) (hps : s.ps = .fail) :
    exec i s = .next (finishedState s s.fKind .none s.fInfo) := by
  rw [exec_eq_runCommand hplan, runCommand, hp]
  simp only [interpStep, hps]
  rfl

/-- INTERP after DONE is the command's own interpretation. -/
theorem exec_interp_done (hplan : planOf s.cfg i = some p) (hp : s.phase = .interp) (hps : s.ps = .done) :
    exec i s = interpretOf i s := by
  rw [exec_eq_runCommand hplan, runCommand, hp]
  simp only [interpStep, hps]

/-- A command that interprets by `status_check()` (R169). -/
theorem checksStatus_of_plan (hplan : planOf s.cfg i = some p) (hi : interpretOf i = interpretStatus)
    (hp : s.phase = .interp) (hps : s.ps = .done) : checksStatus i s := by
  unfold checksStatus
  rw [exec_interp_done hplan hp hps, hi]
  exact ⟨fun h => if_pos h, fun h => if_neg h⟩

/-- The parameters below `p_n` are those the buffer holds there (R28). -/
theorem paramAt_of_getElem? {k : Nat} {b : Byte} (hk : k < s.pN) (hb : s.pBuf[k]? = some b) :
    paramAt s k = some b := by
  rw [paramAt, if_pos hk, hb]

theorem interpretRead_empty (hn : s.pN = 0) :
    interpretRead s = .next (finishedState s .emptyResponse .none {}) := by
  unfold interpretRead
  rw [hn]
  rfl

theorem interpretRead_byte {b0 : Byte} (hn : s.pN = 1) (h0 : s.pBuf[0]? = some b0) :
    interpretRead s = .next (finishedState s .ok (.byte b0) {}) := by
  unfold interpretRead
  rw [hn, paramAt_of_getElem? (by omega) h0]
  rfl

theorem interpretRead_word {b0 b1 : Byte} (hn : s.pN = 2) (h0 : s.pBuf[0]? = some b0)
    (h1 : s.pBuf[1]? = some b1) :
    interpretRead s = .next (finishedState s .ok (.word (le16 b0 b1)) {}) := by
  unfold interpretRead paramHalf
  rw [hn, paramAt_of_getElem? (by omega) h0, paramAt_of_getElem? (by omega) h1]
  rfl

theorem interpretRead_raw (hn : 3 ≤ s.pN) (hroom : s.pN ≤ s.pBuf.length) :
    interpretRead s = .next (finishedState s .ok (.raw (s.pBuf.take s.pN)) {}) := by
  unfold interpretRead
  split
  case h_4 =>
    rw [decodedParams, if_pos hroom]
    rfl
  all_goals omega

/-- A command that classifies the response by its parameter count (R167). -/
theorem classifies_of_plan (hplan : planOf s.cfg i = some p) (hi : interpretOf i = interpretRead)
    (hp : s.phase = .interp) (hps : s.ps = .done) : classifies i s := by
  unfold classifies
  rw [exec_interp_done hplan hp hps, hi]
  exact ⟨interpretRead_empty, fun _ => interpretRead_byte, fun _ _ => interpretRead_word, interpretRead_raw⟩

end Phases

/-! ## The checks -/

section Checks

variable {c : Config}

/-- Reason 1 (R162). -/
theorem checkTarget_of_ok {id : Byte} (h : targetOk c id) : checkTarget c id = none :=
  if_pos (by simpa [validTarget, or_assoc] using h)

theorem checkTarget_of_not_ok {id : Byte} (h : ¬ targetOk c id) : checkTarget c id = some .badTarget :=
  if_neg (by simpa [validTarget, or_assoc] using h)

/-- Reason 3 (R182); that it is not given within the budget is `checkBudget_eq_none`. -/
theorem checkBudget_exceeded {ps : List Byte} (h : c.maxParams < ps.length) :
    checkBudget c ps = some .tooManyParams :=
  if_neg (Nat.not_le_of_lt h)

/-- Reason 6 (R170, R172). -/
theorem checkListIds_of_all {ids : List Byte} (h : ∀ i ∈ ids, i.toNat ≤ 253) : checkListIds ids = none :=
  if_pos (by simpa using h)

theorem checkListIds_of_exists {ids : List Byte} (h : ∃ i ∈ ids, 253 < i.toNat) :
    checkListIds ids = some .badListId :=
  if_neg (by simpa using h)

/-- Reason 4 (R170). -/
theorem checkWidths_of_all {width : Byte} {es : List Entry} (h : ∀ e ∈ es, 2 * e.vals.length = width.toNat) :
    checkWidths width es = none :=
  if_pos (by simpa [widthsMatch] using h)

theorem checkWidths_of_exists {width : Byte} {es : List Entry}
    (h : ∃ e ∈ es, 2 * e.vals.length ≠ width.toNat) : checkWidths width es = some .widthMismatch :=
  if_neg (by simpa [widthsMatch] using h)

end Checks

/-- The number of SYNC_WRITE's parameters (R78). -/
theorem length_syncWriteParams (addr width : Byte) (es : List Entry) :
    (syncWriteParams addr width es).length = 2 + (es.map fun e => 1 + 2 * e.vals.length).sum := by
  have hentries : (es.flatMap entryBytes).length = (es.map fun e => 1 + 2 * e.vals.length).sum := by
    rw [List.length_flatMap]
    congr 1
    refine List.map_congr_left fun e _ => ?_
    rw [entryBytes, List.length_cons, length_flatMap_halfBytes, Nat.add_comm]
  rw [syncWriteParams, List.length_append, hentries]
  rfl

/-! ## The verdicts of the plans -/

section Verdicts

variable {c : Config} {id addr : Byte}

theorem planPing_verdict (h : targetOk c id) : (planPing c id).verdict = checkNotBroadcast c id := by
  simp [planPing, checkTarget_of_ok h]

theorem planRead_verdict (h : targetOk c id) (hb : id ≠ c.idBroadcast) (count : Byte) :
    (planRead c id addr count).verdict = checkBudget c [addr, count] := by
  simp [planRead, checkTarget_of_ok h, checkNotBroadcast, hb, readParams]

theorem planWrite_verdict (h : targetOk c id) (data : List Byte) :
    (planWrite c id addr data).verdict = checkBudget c (addr :: data) := by
  simp [planWrite, checkTarget_of_ok h, writeParams]

theorem planSend_verdict (h : targetOk c id) (cmd : Byte) (data : List Byte) :
    (planSend c id cmd data).verdict = checkBudget c data := by
  simp [planSend, checkTarget_of_ok h]

/-- Once the listed IDs pass, SYNC_WRITE's next check is that of the widths. -/
theorem planSyncWrite_verdict_ids {width : Byte} {es : List Entry} (h : ∀ e ∈ es, e.eid.toNat ≤ 253) :
    (planSyncWrite c addr width es).verdict =
      (checkWidths width es).or (checkBudget c (syncWriteParams addr width es)) := by
  simp only [planSyncWrite, checkListIds_of_all (List.forall_mem_map.2 h), Option.none_or]

theorem planSyncWrite_verdict {width : Byte} {es : List Entry} (h : ∀ e ∈ es, e.eid.toNat ≤ 253)
    (hw : ∀ e ∈ es, 2 * e.vals.length = width.toNat) :
    (planSyncWrite c addr width es).verdict = checkBudget c (syncWriteParams addr width es) := by
  rw [planSyncWrite_verdict_ids h, checkWidths_of_all hw, Option.none_or]

/-- Once the listed IDs pass, SYNC_READ's next check is that of the group. -/
theorem planSyncRead_verdict_ids {ids : List Byte} (h : ∀ i ∈ ids, i.toNat ≤ 253) (width : Byte) :
    (planSyncRead c ids width).verdict = (checkGroup c width).or (checkBudget c ids) := by
  simp only [planSyncRead, checkListIds_of_all h, Option.none_or]

theorem planSyncRead_verdict {ids : List Byte} (h : ∀ i ∈ ids, i.toNat ≤ 253) {width : Byte}
    (hw : c.syncReadPosOffset.toNat + 2 ≤ width.toNat) :
    (planSyncRead c ids width).verdict = checkBudget c ids := by
  rw [planSyncRead_verdict_ids h, checkGroup, if_pos hw, Option.none_or]

end Verdicts

/-! ## PING, READ_REG, WRITE_REG -/

/-- Settles O15: PING's verdict decides CHECK, and it interprets by the status. -/
theorem pingRunsByItsRule : Obligations.PingRunsByItsRule := by
  intro id s
  refine ⟨fun hp ht => ?_, fun hp ht hb => ?_, fun hp ht hb => ?_, fun hp => drains_of_plan rfl hp rfl,
    fun hp hps => checksStatus_of_plan rfl rfl hp hps, fun hp hps => exec_interp_fail rfl hp hps⟩
  · exact exec_check_refused rfl hp (r := .badTarget) (by simp [planPing, checkTarget_of_not_ok ht])
  · exact exec_check_refused rfl hp (r := .broadcastReply) ((planPing_verdict ht).trans (if_pos hb))
  · exact exec_check_queued rfl hp ((planPing_verdict ht).trans (if_neg hb)) rfl

/-- Settles O16: READ_REG's verdict decides CHECK, and it classifies the response by its count. -/
theorem readRegRunsByItsRule : Obligations.ReadRegRunsByItsRule := by
  intro id addr count s
  refine ⟨fun hp ht => ?_, fun hp ht hb => ?_, fun hp ht hb hmax => ?_, fun hp ht hb hmax => ?_,
    fun hp => drains_of_plan rfl hp rfl, fun hp hps => classifies_of_plan rfl rfl hp hps,
    fun hp hps => exec_interp_fail rfl hp hps⟩
  · exact exec_check_refused rfl hp (r := .badTarget) (by simp [planRead, checkTarget_of_not_ok ht])
  · exact exec_check_refused rfl hp (r := .broadcastReply)
      (by simp only [planRead, checkTarget_of_ok ht, checkNotBroadcast, if_pos hb, Option.none_or, Option.some_or])
  · exact exec_check_refused rfl hp (r := .tooManyParams)
      ((planRead_verdict ht hb count).trans (checkBudget_exceeded hmax))
  · exact exec_check_queued rfl hp ((planRead_verdict ht hb count).trans (checkBudget_eq_none.2 hmax)) rfl

/-- Settles O17: WRITE_REG's verdict decides CHECK, its reply depends on the target alone, and it interprets by the
status. -/
theorem writeRegRunsByItsRule : Obligations.WriteRegRunsByItsRule := by
  intro id addr data s
  have hlen : (addr :: data).length = 1 + data.length := Nat.add_comm _ _
  refine ⟨fun hp ht => ?_, fun hp ht hmax => ?_, fun hp ht hmax => ?_, fun hp => drains_of_plan rfl hp rfl,
    fun hp hps => checksStatus_of_plan rfl rfl hp hps, fun hp hps => exec_interp_fail rfl hp hps⟩
  · exact exec_check_refused rfl hp (r := .badTarget) (by simp [planWrite, checkTarget_of_not_ok ht])
  · exact exec_check_refused rfl hp (r := .tooManyParams)
      ((planWrite_verdict ht data).trans (checkBudget_exceeded (hlen ▸ hmax)))
  · exact exec_check_queued rfl hp ((planWrite_verdict ht data).trans (checkBudget_eq_none.2 (hlen ▸ hmax))) rfl

/-! ## SYNC_WRITE and SYNC_READ -/

/-- Settles O18: SYNC_WRITE's verdict decides CHECK check by check, and it expects no response. -/
theorem syncWriteRunsByItsRule : Obligations.SyncWriteRunsByItsRule := by
  intro addr width es s
  rw [← length_syncWriteParams addr width es]
  refine ⟨fun hp hid => ?_, fun hp hid hw => ?_, fun hp hid hw hmax => ?_, fun hp hid hw hmax => ?_,
    fun hp => drains_of_plan rfl hp rfl⟩
  · obtain ⟨e, he, hbig⟩ := hid
    have hids : ∃ i ∈ es.map Entry.eid, 253 < i.toNat := ⟨e.eid, List.mem_map_of_mem he, hbig⟩
    exact exec_check_refused rfl hp (r := .badListId) (by simp [planSyncWrite, checkListIds_of_exists hids])
  · exact exec_check_refused rfl hp (r := .widthMismatch)
      (by rw [planSyncWrite_verdict_ids hid, checkWidths_of_exists hw, Option.some_or])
  · exact exec_check_refused rfl hp (r := .tooManyParams)
      ((planSyncWrite_verdict hid hw).trans (checkBudget_exceeded hmax))
  · exact exec_check_queued rfl hp ((planSyncWrite_verdict hid hw).trans (checkBudget_eq_none.2 hmax)) rfl

/-- Settles O19: SYNC_READ's verdict decides CHECK check by check, and it always expects a response. -/
theorem syncReadRequestsByItsRule : Obligations.SyncReadRequestsByItsRule := by
  intro ids width s
  refine ⟨fun hp hid => ?_, fun hp hid hw => ?_, fun hp hid hw hmax => ?_, fun hp hid hw hmax => ?_,
    fun hp => drains_of_plan rfl hp rfl, fun hp hps => exec_interp_fail rfl hp hps⟩
  · exact exec_check_refused rfl hp (r := .badListId) (by simp [planSyncRead, checkListIds_of_exists hid])
  · exact exec_check_refused rfl hp (r := .groupTooNarrow)
      (by rw [planSyncRead_verdict_ids hid, checkGroup, if_neg (Nat.not_le_of_lt hw), Option.some_or])
  · exact exec_check_refused rfl hp (r := .tooManyParams)
      ((planSyncRead_verdict hid hw).trans (checkBudget_exceeded hmax))
  · exact exec_check_queued rfl hp ((planSyncRead_verdict hid hw).trans (checkBudget_eq_none.2 hmax)) rfl

/-! ## The pseudo-operations -/

/-- Settles O22: a pseudo-operation has its expansion's plan and interpretation. -/
theorem pseudoOperationsAreTheirExpansions : Obligations.PseudoOperationsAreTheirExpansions :=
  fun _ _ _ => ⟨rfl, rfl, rfl, rfl⟩

/-- Settles O23: each clause is WRITE_REG's or READ_REG's own, on the expansion. -/
theorem pseudoOperationsQueueTheirFramesAndFinish : Obligations.PseudoOperationsQueueTheirFramesAndFinish := by
  intro id value s
  refine ⟨fun hp ht hmax => ?_, fun hp hps => ?_⟩
  · have queues : ∀ addr data, (addr :: data).length ≤ s.cfg.maxParams →
        exec (.writeReg id addr data) s = .next (queuedState s (encodeFrame id s.cfg.opWrite ([addr] ++ data))) :=
      fun addr data hfits => exec_check_queued rfl hp
        ((planWrite_verdict ht data).trans (checkBudget_eq_none.2 hfits)) rfl
    refine ⟨queues _ [1] (Nat.le_of_succ_le hmax), queues _ [0] (Nat.le_of_succ_le hmax),
      queues _ [lo8 value, hi8 value] hmax, fun hb => ?_⟩
    exact exec_check_queued rfl hp
      ((planRead_verdict ht hb 2).trans (checkBudget_eq_none.2 (Nat.le_of_succ_le hmax))) rfl
  · exact ⟨checksStatus_of_plan rfl rfl hp hps, checksStatus_of_plan rfl rfl hp hps,
      checksStatus_of_plan rfl rfl hp hps, classifies_of_plan rfl rfl hp hps⟩

/-! ## The wire requests -/

section WireRequests

variable {s : State} {ps f : List Byte}

/-- A request frame within the budget is queued in CHECK. -/
theorem runRequest_fits (hp : s.phase = .check) (h : ps.length ≤ s.cfg.maxParams) :
    runRequest ps f s = .next (queuedState s f) := by
  rw [runRequest, hp]
  simp only [checkBudget_eq_none.2 h]
  rfl

/-- A request frame above the budget is refused in CHECK with reason 3 (R182). -/
theorem runRequest_exceeds (hp : s.phase = .check) (h : s.cfg.maxParams < ps.length) :
    runRequest ps f s = .next (malformedState s 3) := by
  rw [runRequest, hp]
  simp only [checkBudget_exceeded h]
  rfl

/-- Outside CHECK a request frame does nothing (log 14). -/
theorem runRequest_hold (hp : s.phase ≠ .check) : runRequest ps f s = .next s := by
  unfold runRequest
  split
  case h_1 h => exact absurd h hp
  case h_2 => rfl

/-- In CHECK a command whose only check left is the budget is its request frame by itself. -/
theorem exec_eq_runRequest {i : Instr} {p : Plan} (hplan : planOf s.cfg i = some p) (hp : s.phase = .check)
    (hv : p.verdict = checkBudget s.cfg ps) (hf : p.request = some f) : exec i s = runRequest ps f s := by
  by_cases hfits : ps.length ≤ s.cfg.maxParams
  · rw [runRequest_fits hp hfits]
    exact exec_check_queued hplan hp (hv.trans (checkBudget_eq_none.2 hfits)) hf
  · have hexceeds : s.cfg.maxParams < ps.length := Nat.lt_of_not_le hfits
    rw [runRequest_exceeds hp hexceeds]
    exact exec_check_refused hplan hp (hv.trans (checkBudget_exceeded hexceeds))

end WireRequests

/-- The sum goes on from its first byte (R100). -/
theorem sum8_cons (b : Byte) (bs : List Byte) : sum8 (b :: bs) = b + sum8 bs := by
  simp [sum8, BitVec.ofNat_add]

theorem pingFrame_eq (c : Config) (id : Byte) :
    pingFrame c id = [0xFF, 0xFF, id, 2, c.opPing, 0xFF - (id + 2 + c.opPing)] := by
  have hsum : sum8 [id, 2, c.opPing] = id + 2 + c.opPing := by
    simp only [sum8_cons, add_assoc]
    simp [sum8]
  rw [← hsum]
  rfl

theorem readFrame_eq (c : Config) (id addr count : Byte) :
    readFrame c id addr count =
      [0xFF, 0xFF, id, 4, c.opRead, addr, count, 0xFF - (id + 4 + c.opRead + addr + count)] := by
  have hsum : sum8 [id, 4, c.opRead, addr, count] = id + 4 + c.opRead + addr + count := by
    simp only [sum8_cons, add_assoc]
    simp [sum8]
  rw [← hsum]
  rfl

/-- Settles O25: each row is `runRequest` of its own parameters, below the budget, above it, and outside CHECK. -/
theorem wireRequestsQueueTheirFrames : Obligations.WireRequestsQueueTheirFrames := by
  intro id addr count width data ids es s
  rw [← length_syncWriteParams addr width es, ← pingFrame_eq, ← readFrame_eq]
  have hlen : (writeParams addr data).length = 1 + data.length := Nat.add_comm _ _
  rw [← hlen]
  refine ⟨fun hp => ?_, fun hp hmax => ?_, fun hp hmax => ?_, fun hp hmax => ?_, fun hp hmax => ?_,
    fun hp hmax => ?_, fun hp hmax => ?_, fun hp hmax => ?_, fun hp hmax => ?_, fun hp => ?_⟩
  · exact runRequest_fits (ps := []) hp (Nat.zero_le _)
  · exact runRequest_fits (ps := readParams addr count) hp hmax
  · exact runRequest_fits hp hmax
  · exact runRequest_fits hp hmax
  · exact runRequest_fits hp hmax
  · exact runRequest_exceeds (ps := readParams addr count) hp hmax
  · exact runRequest_exceeds hp hmax
  · exact runRequest_exceeds hp hmax
  · exact runRequest_exceeds hp hmax
  · exact ⟨runRequest_hold (ps := []) hp, runRequest_hold (ps := readParams addr count) hp,
      runRequest_hold (ps := writeParams addr data) hp,
      runRequest_hold (ps := syncWriteParams addr width es) hp, runRequest_hold (ps := ids) hp⟩

/-- Settles O26: with the other checks passed, each command's verdict is the budget of its own frame. -/
theorem passingChecksEmitTheWireRequest : Obligations.PassingChecksEmitTheWireRequest := by
  intro id addr count width data ids es s hp
  have no_params : none = checkBudget s.cfg [] := (checkBudget_eq_none.2 (Nat.zero_le _)).symm
  refine ⟨fun ht hb => ⟨?_, ?_⟩, fun ht => ⟨?_, ?_⟩, fun hid hw => ?_, fun hid hw => ?_⟩
  · exact exec_eq_runRequest rfl hp (((planPing_verdict ht).trans (if_neg hb)).trans no_params) rfl
  · exact exec_eq_runRequest rfl hp (planRead_verdict ht hb count) rfl
  · exact exec_eq_runRequest rfl hp (planWrite_verdict ht data) rfl
  · exact exec_eq_runRequest rfl hp (planSend_verdict ht s.cfg.opPing []) rfl
  · exact exec_eq_runRequest rfl hp (planSyncWrite_verdict hid hw) rfl
  · exact exec_eq_runRequest rfl hp (planSyncRead_verdict hid hw) rfl

end Sys2Proof.Machine
end

section
/-! Runs meet no fault and no refusal (60_exceptions.md R216): under the invariant every event answers a next state,
as long as the host offers records of R83. -/

namespace Sys2Proof.Machine

/-! ## Reads within the buffer -/

/-- The buffer has room for the parameters of the longest frame (R7, R28). -/
theorem Invariant.depth_ge {s : State} (h : Invariant s) : 253 ≤ s.pBuf.length := by
  obtain ⟨-, -, -, -, hdepth, -⟩ := (Config.valid_iff s.cfg).1 h.valid
  exact h.depth ▸ hdepth

/-- The buffer holds every parameter received (R28). -/
theorem Invariant.room {s : State} (h : Invariant s) : s.pN ≤ s.pBuf.length :=
  Nat.le_trans h.count h.depth_ge

section Reads

variable {s : State} (room : s.pN ≤ s.pBuf.length)
include room

theorem paramAt_isSome {k : Nat} (hk : k < s.pN) : ∃ b, paramAt s k = some b :=
  ⟨_, paramAt_of_getElem? hk (List.getElem?_eq_getElem (Nat.lt_of_lt_of_le hk room))⟩

theorem paramHalf_isSome {k : Nat} (hk : k + 1 < s.pN) : ∃ v, paramHalf s k = some v := by
  obtain ⟨b0, h0⟩ := paramAt_isSome room (Nat.lt_of_succ_lt hk)
  obtain ⟨b1, h1⟩ := paramAt_isSome room hk
  exact ⟨le16 b0 b1, by rw [paramHalf, h0, h1]⟩

theorem paramStamp_isSome (hn : 4 ≤ s.pN) : ∃ ts, paramStamp s = some ts := by
  obtain ⟨b0, h0⟩ := paramAt_isSome room (k := 0) (by omega)
  obtain ⟨b1, h1⟩ := paramAt_isSome room (k := 1) (by omega)
  obtain ⟨b2, h2⟩ := paramAt_isSome room (k := 2) (by omega)
  obtain ⟨b3, h3⟩ := paramAt_isSome room (k := 3) (by omega)
  exact ⟨le32 b0 b1 b2 b3, by rw [paramStamp, h0, h1, h2, h3]⟩

/-- The positions of groups that end within the parameters are all there (R174). -/
theorem groupPositions_isSome {w off : Nat} (hw : off + 2 ≤ w) {n k : Nat} (hn : 4 + (k + n) * w ≤ s.pN) :
    ∃ ps, groupPositions s w off n k = some ps := by
  induction n generalizing k with
  | zero => exact ⟨[], rfl⟩
  | succ n ih =>
    have hgroup : 4 + k * w + w ≤ s.pN := by
      have hmul : (k + 1) * w ≤ (k + (n + 1)) * w := Nat.mul_le_mul_right w (by omega)
      rw [Nat.succ_mul] at hmul
      omega
    obtain ⟨p, hp⟩ := paramHalf_isSome room (k := 4 + k * w + off) (by omega)
    obtain ⟨ps, hps⟩ := ih (k := k + 1) (by rwa [Nat.add_right_comm, Nat.add_assoc])
    exact ⟨p :: ps, by rw [groupPositions, hp, hps]⟩

end Reads

/-! ## The interpretations answer -/

theorem answersNext_withParam {α : Type} {v : Option α} (h : ∃ a, v = some a) (k : α → State) :
    answersNext (withParam v k) := by
  obtain ⟨a, rfl⟩ := h
  exact ⟨k a, rfl⟩

section Interpretations

variable {s : State} (room : s.pN ≤ s.pBuf.length)

theorem answersNext_interpretStatus : answersNext (interpretStatus s) := by
  unfold interpretStatus
  split <;> exact ⟨_, rfl⟩

include room

theorem decodedParams_of_room : decodedParams s = some (receivedParams s) := if_pos room

theorem answersNext_interpretRead : answersNext (interpretRead s) := by
  unfold interpretRead
  split
  case h_1 => exact ⟨_, rfl⟩
  case h_2 hn => exact answersNext_withParam (paramAt_isSome room (by omega)) _
  case h_3 hn => exact answersNext_withParam (paramHalf_isSome room (by omega)) _
  case h_4 => exact answersNext_withParam ⟨_, decodedParams_of_room room⟩ _

/-- The length tests of R174 leave only responses whose groups are whole. -/
theorem answersNext_interpretSyncRead (n : Nat) {width : Byte}
    (hw : s.cfg.syncReadPosOffset.toNat + 2 ≤ width.toNat) : answersNext (interpretSyncRead n width s) := by
  unfold interpretSyncRead
  split
  case isTrue => exact ⟨_, rfl⟩
  case isFalse =>
  split
  case isTrue => exact ⟨_, rfl⟩
  case isFalse hlen =>
    simp only [not_or, Decidable.not_not, Nat.not_lt] at hlen
    obtain ⟨hstamp, hmod, hdiv⟩ := hlen
    have hgroups : 4 + (0 + n) * width.toNat ≤ s.pN := by
      have hwhole := Nat.div_add_mod (s.pN - 4) width.toNat
      rw [hmod, hdiv, Nat.mul_comm] at hwhole
      rw [Nat.zero_add]
      omega
    obtain ⟨ts, hts⟩ := paramStamp_isSome room hstamp
    obtain ⟨pos, hpos⟩ := groupPositions_isSome room hw hgroups
    exact answersNext_withParam ⟨.sync ts pos, by rw [syncPayload, hts, hpos]⟩ _

/-- A command past its checks that expects a response interprets every decoded one. -/
theorem answersNext_interpretOf {i : Instr} {p : Plan} (hplan : planOf s.cfg i = some p)
    (hv : p.verdict = none) (hr : p.reply = true) : answersNext (interpretOf i s) := by
  cases i <;> simp only [planOf, Option.some.injEq, reduceCtorEq] at hplan <;> subst hplan
  case recv => exact answersNext_withParam ⟨_, decodedParams_of_room room⟩ _
  case ping | writeReg | torqueOn | torqueOff | setPosition => exact answersNext_interpretStatus
  case readReg | readPosition => exact answersNext_interpretRead room
  case syncRead ids width =>
    obtain ⟨-, hrest⟩ := Option.or_eq_none_iff.1 hv
    obtain ⟨hgroup, -⟩ := Option.or_eq_none_iff.1 hrest
    exact answersNext_interpretSyncRead room _ (by simpa [checkGroup] using hgroup)
  case send | syncWrite | flushTx => cases hr

end Interpretations

/-! ## The parser answers -/

/-- The parser reads a byte in every read state; only RPAR needs room for it. -/
theorem parseByte_ok {s : State} (b : Byte) (hread : isReadState s.ps = true)
    (hroom : s.ps = .rpar → s.pN < s.pBuf.length) : ∃ t, parseByte b s = .ok t := by
  unfold parseByte
  split
  case h_6 hps => exact ⟨_, if_pos (hroom hps)⟩
  case h_8 hps | h_9 hps | h_10 hps => simp [hps, isReadState] at hread
  all_goals exact ⟨_, rfl⟩

/-- In RPAR the buffer has room for the next parameter. -/
theorem Invariant.room_of_rpar {s : State} (h : Invariant s) (hps : s.ps = .rpar) : s.pN < s.pBuf.length := by
  obtain ⟨hmore, -⟩ := (parserHolds_rpar hps).1 h.parser
  have hlen := s.pLen.isLt
  have hdepth := h.depth_ge
  omega

/-- A byte waiting in a read state is parsed. -/
theorem rxStep_parses {s t : State} {b : Byte} {rest : List Byte} (hread : isReadState s.ps = true)
    (hq : s.rxq = b :: rest) (hparse : parseByte b { s with rxq := rest } = .ok t) : rxStep s = .next t := by
  unfold rxStep
  split
  case h_1 hps | h_2 hps | h_3 hps => simp [hps, isReadState] at hread
  case h_4 =>
    unfold popAndParse
    simp only [hq, hparse]
    rfl

theorem rxStep_ended {s : State} (hended : s.ps = .done ∨ s.ps = .fail) :
    rxStep s = .next { s with phase := .interp } := by
  unfold rxStep
  rcases hended with hps | hps <;> rw [hps]

theorem rxStep_waits {s : State} (hread : isReadState s.ps = true) (hq : s.rxq = []) : rxStep s = .next s := by
  unfold rxStep
  split
  case h_1 hps | h_2 hps | h_3 hps => simp [hps, isReadState] at hread
  case h_4 =>
    unfold popAndParse
    simp only [hq]

/-- A parser that has started reads, or has ended. -/
theorem isReadState_or_ended {q : PState} (h : q ≠ .idle) : isReadState q = true ∨ q = .done ∨ q = .fail := by
  cases q <;> simp [isReadState] at h ⊢

theorem answersNext_rxStep {s : State} (h : Invariant s) (hphase : s.phase = .rx) : answersNext (rxStep s) := by
  have hstarted : s.ps ≠ .idle := parserPlaced_rx.1 (hphase ▸ h.placed)
  rcases isReadState_or_ended hstarted with hread | hended
  · cases hq : s.rxq with
    | nil => exact ⟨s, rxStep_waits hread hq⟩
    | cons b rest =>
      obtain ⟨t, hparse⟩ := parseByte_ok (s := { s with rxq := rest }) b hread fun hps => h.room_of_rpar hps
      exact ⟨t, rxStep_parses hread hq hparse⟩
  · exact ⟨_, rxStep_ended hended⟩

/-! ## The running command answers -/

/-- From TX on the fetched instruction is a command past its checks; from RX on it expects a response. -/
theorem Invariant.running {s : State} (h : Invariant s)
    (hphase : s.phase = .tx ∨ s.phase = .rx ∨ s.phase = .interp) :
    ∃ i p, Running s i p ∧ p.verdict = none ∧ (s.phase ≠ .tx → p.reply = true) := by
  have of_plan : ∀ p, runningPlan s = some p → ∃ i, Running s i p := by
    intro p hp
    unfold runningPlan at hp
    split at hp
    case h_1 i hfetch => exact ⟨i, hfetch, hp⟩
    case h_2 => cases hp
  rcases hphase with htx | hreply
  · obtain ⟨-, p, hp, hv⟩ := (commandHolds_tx htx).1 h.command
    obtain ⟨i, hrun⟩ := of_plan p hp
    exact ⟨i, p, hrun, hv, fun hne => absurd htx hne⟩
  · obtain ⟨-, p, hp, hv, hr⟩ := (commandHolds_reply hreply).1 h.command
    obtain ⟨i, hrun⟩ := of_plan p hp
    exact ⟨i, p, hrun, hv, fun _ => hr⟩

/-- In CHECK every instruction that a record selects answers. -/
theorem answersNext_check {s : State} {i : Instr} (hphase : s.phase = .check) (hi : IsHostInstr s.cfg i) :
    answersNext (exec i s) := by
  have of_illegal : ∀ op, answersNext (runIllegal op s) := fun op => by
    rw [runIllegal, hphase]
    exact ⟨_, rfl⟩
  rcases hi with ⟨reply, hreply⟩ | rfl | rfl | rfl | rfl
  · obtain ⟨p, hplan, -⟩ := plan_of_responseExpected hreply
    exact ⟨_, exec_check hplan hphase⟩
  all_goals exact of_illegal _

/-- A command past its checks answers in TX, RX and INTERP. -/
theorem Running.answersNext {s : State} {i : Instr} {p : Plan} (hrun : Running s i p) (h : Invariant s)
    (hphase : s.phase = .tx ∨ s.phase = .rx ∨ s.phase = .interp) (hv : p.verdict = none)
    (hr : s.phase ≠ .tx → p.reply = true) : answersNext (exec i s) := by
  rw [exec_eq_runCommand hrun.planned, runCommand]
  rcases hphase with htx | hrx | hinterp
  · rw [htx]
    exact ⟨_, rfl⟩
  · rw [hrx]
    exact answersNext_rxStep h hrx
  · rw [hinterp]
    unfold interpStep
    rcases parserPlaced_interp.1 (hinterp ▸ h.placed) with hdone | hfail
    · rw [hdone]
      exact answersNext_interpretOf h.room hrun.planned hv (hr (by simp [hinterp]))
    · rw [hfail]
      exact ⟨_, rfl⟩

theorem answersNext_sequencerEvent {s : State} (h : Invariant s) : answersNext (sequencerEvent s) := by
  have past_check : s.phase = .tx ∨ s.phase = .rx ∨ s.phase = .interp → answersNext (sequencerEvent s) := by
    intro hphase
    obtain ⟨i, p, hrun, hv, hr⟩ := h.running hphase
    rw [sequencerEvent_running (by rcases hphase with e | e | e <;> simp [e])
      (by rcases hphase with e | e | e <;> simp [e]) hrun.fetched]
    exact hrun.answersNext h hphase hv hr
  cases hphase : s.phase with
  | idle => exact ⟨s, by rw [sequencerEvent, hphase]⟩
  | result => exact ⟨s, by rw [sequencerEvent, hphase]⟩
  | check =>
    have hwell : s.cur.wellFormed = true := by simpa [commandHolds, hphase] using h.command
    have hfetch := fetch_of_wellFormed hwell
    obtain ⟨-, -, hhost⟩ := fetch_ok hfetch
    rw [sequencerEvent_running (by simp [hphase]) (by simp [hphase]) hfetch]
    exact answersNext_check hphase hhost
  | tx => exact past_check (.inl hphase)
  | rx => exact past_check (.inr (.inl hphase))
  | interp => exact past_check (.inr (.inr hphase))

/-! ## Every event answers -/

theorem hostFits_iff {e : Env} :
    hostFits e = true ↔ (∀ c ∈ e.offered, c.wellFormed = true) ∧ ∀ v ∈ e.schedule, eventFits v = true := by
  simp [hostFits]

theorem answersNext_acceptEvent {s : State} (hoffered : ∀ c ∈ s.env.offered, c.wellFormed = true) :
    answersNext (acceptEvent s) := by
  unfold acceptEvent
  split
  case h_1 c cs _ ho => exact ⟨_, if_pos (hoffered c (ho ▸ List.mem_cons_self))⟩
  case h_2 => exact ⟨s, rfl⟩

theorem answersNext_perform {s : State} (h : Invariant s)
    (hoffered : ∀ c ∈ s.env.offered, c.wellFormed = true) (e : Event) : answersNext (perform e s) := by
  cases e with
  | accept => exact ite_of_both answersNext ⟨s, rfl⟩ (answersNext_acceptEvent hoffered)
  | seq => exact ite_of_both answersNext ⟨s, rfl⟩ (answersNext_sequencerEvent h)
  | _ => exact ⟨_, rfl⟩

theorem answersNext_step {s : State} (h : Invariant s) (hfits : hostFits s.env = true) :
    answersNext (step s) := by
  cases hs : s.env.schedule with
  | nil => exact ⟨s, step_of_empty h.valid hs⟩
  | cons e rest =>
    rw [step_of_event h.valid hs]
    exact answersNext_perform (h.withEnv { s.env with schedule := rest }) (hostFits_iff.1 hfits).1 e

/-! ## The host goes on offering records of R83 -/

/-- An event leaves on the port what was there, but for a record it accepts and one it offers. -/
theorem Performs.offered_fits {s t : State} {e : Event} (h : Performs s e t) (he : eventFits e = true)
    (hoffered : ∀ c ∈ s.env.offered, c.wellFormed = true) : ∀ c ∈ t.env.offered, c.wellFormed = true := by
  cases h with
  | offer c =>
    intro d hd
    rcases List.mem_append.1 hd with hd | hd
    · exact hoffered d hd
    · exact List.mem_singleton.1 hd ▸ he
  | accept c cs running idle offered fits =>
    exact fun d hd => hoffered d (offered ▸ List.mem_cons_of_mem c hd)
  | seq i t running notIdle notResult fetched runs => rwa [(moves_of_exec runs).coreKept.env]
  | _ => exact hoffered

/-- No event writes the schedule. -/
theorem Performs.schedule_eq {s t : State} {e : Event} (h : Performs s e t) :
    t.env.schedule = s.env.schedule := by
  cases h with
  | seq i t running notIdle notResult fetched runs => rw [(moves_of_exec runs).coreKept.env]
  | _ => rfl

theorem hostFits_of_step {s t : State} (hfits : hostFits s.env = true) (h : step s = .next t) :
    hostFits t.env = true := by
  obtain ⟨-, rfl | ⟨e, rest, hs, hp⟩⟩ := step_performs h
  · exact hfits
  · obtain ⟨hoffered, hschedule⟩ := hostFits_iff.1 hfits
    rw [hs] at hschedule
    refine hostFits_iff.2 ⟨hp.offered_fits (hschedule e List.mem_cons_self) hoffered, ?_⟩
    rw [hp.schedule_eq]
    exact fun v hv => hschedule v (List.mem_cons_of_mem e hv)

/-- Settles O51: by induction on the length of the run, each step answering and keeping both premises. -/
theorem noRunFaultsOrIsRefused : Obligations.NoRunFaultsOrIsRefused := by
  intro s k
  induction k generalizing s with
  | zero => exact fun _ _ => ⟨s, run_zero s⟩
  | succ k ih =>
    intro hinv hfits
    obtain ⟨t, hstep⟩ := answersNext_step (invariant_iff.1 hinv) hfits
    rw [run_succ hstep]
    exact ih t (stepKeepsTheInvariant s t hinv hstep) (hostFits_of_step hfits hstep)

end Sys2Proof.Machine
end

section
/-! Bounded runs, and the end of a decode that has bytes to read (41_transport.md R148, 40_codec.md R116): every
byte popped brings the parser nearer its end, at most 259 of them. -/

namespace Sys2Proof.Machine

/-- The invariant after a step, as a proposition. -/
theorem Invariant.step {s t : State} (h : Invariant s) (hstep : step s = .next t) : Invariant t :=
  invariant_iff.1 (stepKeepsTheInvariant s t (invariant_iff.2 h) hstep)

/-! ## Runs that lead to a state -/

/-- The run of `k` steps answers, and its last state is one of `Q`. -/
def Reaches (k : Nat) (s : State) (Q : State → Prop) : Prop :=
  ∃ t, Host.Core.run Sys2Proof.core k s = .next t ∧ Q t

theorem reaches_zero {s : State} {Q : State → Prop} (h : Q s) : Reaches 0 s Q := ⟨s, run_zero s, h⟩

/-- One step, then the run from where it leads. -/
theorem reaches_succ {k : Nat} {s u : State} {Q : State → Prop} (hstep : step s = .next u)
    (h : Reaches k u Q) : Reaches (k + 1) s Q := by
  obtain ⟨t, hrun, ht⟩ := h
  exact ⟨t, (run_succ hstep).trans hrun, ht⟩

theorem reaches_one {s u : State} {Q : State → Prop} (hstep : step s = .next u) (h : Q u) : Reaches 1 s Q :=
  reaches_succ hstep (reaches_zero h)

/-- Two runs one after the other. -/
theorem Reaches.bind {j k : Nat} {s : State} {P Q : State → Prop} (h : Reaches j s P)
    (hnext : ∀ u, P u → Reaches k u Q) : Reaches (j + k) s Q := by
  obtain ⟨u, hrun, hu⟩ := h
  obtain ⟨t, hrun', ht⟩ := hnext u hu
  exact ⟨t, by rw [run_add, hrun]; exact hrun', ht⟩

theorem Reaches.imp {k : Nat} {s : State} {P Q : State → Prop} (h : Reaches k s P) (hPQ : ∀ t, P t → Q t) :
    Reaches k s Q := by
  obtain ⟨t, hrun, ht⟩ := h
  exact ⟨t, hrun, hPQ t ht⟩

/-! ## The sequencer's step, by phase -/

section SequencerSteps

variable {s : State} {rest : List Event}

/-- In RX the sequencer's step is the parser's, whatever the command. -/
theorem step_rx (h : Invariant s) (hheld : s.env.resetHeld = false) (hs : s.env.schedule = .seq :: rest)
    (hphase : s.phase = .rx) : step s = rxStep (scheduleTaken s rest) := by
  obtain ⟨i, p, hrun, -, -⟩ := h.running (.inr (.inl hphase))
  rw [stepRunsTheDecodedCommand s i rest h.valid hheld hs (by simp [hphase]) (by simp [hphase]) hrun.fetched,
    exec_eq_runCommand (s := scheduleTaken s rest) hrun.planned, runCommand, hphase]

/-- In INTERP the sequencer's step finishes the command. -/
theorem step_interp (h : Invariant s) (hheld : s.env.resetHeld = false) (hs : s.env.schedule = .seq :: rest)
    (hphase : s.phase = .interp) : ∃ k p n, step s = .next (finish k p n (scheduleTaken s rest)) := by
  obtain ⟨i, p, hrun, hv, hr⟩ := h.running (.inr (.inr hphase))
  obtain ⟨t, ht⟩ := Running.answersNext (s := scheduleTaken s rest) ⟨hrun.fetched, hrun.planned⟩ (h.withEnv _)
    (.inr (.inr hphase)) hv hr
  rw [stepRunsTheDecodedCommand s i rest h.valid hheld hs (by simp [hphase]) (by simp [hphase]) hrun.fetched, ht]
  rcases parserPlaced_interp.1 (hphase ▸ h.placed) with hdone | hfail
  · rw [exec_interp_done (s := scheduleTaken s rest) hrun.planned hphase hdone] at ht
    obtain ⟨k, q, n, rfl⟩ := interpretOf_next ht
    exact ⟨k, q, n, rfl⟩
  · rw [exec_interp_fail (s := scheduleTaken s rest) hrun.planned hphase hfail] at ht
    cases ht
    exact ⟨_, _, _, rfl⟩

/-- In RESULT the sequencer's step is a wait. -/
theorem step_result (hv : s.cfg.valid = true) (hheld : s.env.resetHeld = false)
    (hs : s.env.schedule = .seq :: rest) (hphase : s.phase = .result) :
    step s = .next (scheduleTaken s rest) := by
  rw [step_seq hv hheld hs, sequencerEvent, hphase]

end SequencerSteps

/-- A result waits through any number of sequencer steps. -/
theorem reaches_result_of_result {k : Nat} {s : State} (hv : s.cfg.valid = true)
    (hheld : s.env.resetHeld = false) (hphase : s.phase = .result)
    (hs : s.env.schedule = List.replicate k .seq) :
    Reaches k s fun t => t.phase = .result ∧ t.rxq = s.rxq := by
  induction k generalizing s with
  | zero => exact reaches_zero ⟨hphase, rfl⟩
  | succ k ih =>
    exact reaches_succ (step_result hv hheld hs hphase)
      (ih (s := scheduleTaken s (List.replicate k .seq)) hv hheld hphase rfl)

/-! ## How many bytes a decode may still pop -/

/-- An upper bound on the bytes the parser still pops: from RPAR on the declared ones, before it those of the
longest frame (R71). -/
def bytesLeft (s : State) : Nat :=
  match s.ps with
  | .ah1 => 259
  | .ah2 => 258
  | .rid => 257
  | .rlen => 256
  | .rcmd => 255
  | .rpar => s.pLen.toNat - 2 - s.pN + 1
  | .rchk => 1
  | .idle => 0
  | .done => 0
  | .fail => 0

theorem bytesLeft_le (s : State) : bytesLeft s ≤ 259 := by
  have hlen := s.pLen.isLt
  unfold bytesLeft
  split <;> omega

theorem bytesLeft_pos {s : State} (h : isReadState s.ps = true) : 0 < bytesLeft s := by
  unfold bytesLeft
  split
  case h_8 hps | h_9 hps | h_10 hps => simp [hps, isReadState] at h
  all_goals omega

@[simp] theorem bytesLeft_failDecode (k : Status) (n : Info) (s : State) : bytesLeft (failDecode k n s) = 0 := rfl

/-- Every byte parsed leaves fewer to pop. -/
theorem bytesLeft_parseByte {b : Byte} {s t : State} (h : parserHolds s = true)
    (hparse : parseByte b s = .ok t) : bytesLeft t < bytesLeft s := by
  unfold parseByte at hparse
  split at hparse
  case h_1 hps | h_2 hps =>
    cases hparse
    unfold readHeader
    split <;> simp [bytesLeft, hps]
  case h_3 hps =>
    cases hparse
    simp [bytesLeft, hps, readId]
  case h_4 hps =>
    cases hparse
    unfold readLength
    simp only
    split <;> simp [bytesLeft, hps]
  case h_5 hps =>
    cases hparse
    have hbefore : bytesLeft s = 255 := by simp [bytesLeft, hps]
    rw [hbefore]
    have hlen := s.pLen.isLt
    by_cases hshort : s.pLen.toNat ≤ 2
    · simp [bytesLeft, readCommand, hshort]
    · simp only [bytesLeft, readCommand, rearm_ps, hshort, if_false, rearm_pLen, rearm_pN]
      omega
  case h_6 hps =>
    obtain ⟨hmore, -⟩ := (parserHolds_rpar hps).1 h
    obtain ⟨-, rfl⟩ := readParam_next hparse
    have hbefore : bytesLeft s = s.pLen.toNat - 2 - s.pN + 1 := by simp [bytesLeft, hps]
    rw [hbefore]
    by_cases hlast : s.pN + 1 = s.pLen.toNat - 2
    · simp only [bytesLeft, rearm_ps, hlast, if_true]
      omega
    · simp only [bytesLeft, rearm_ps, hlast, if_false, rearm_pLen, rearm_pN]
      omega
  case h_7 hps =>
    cases hparse
    unfold readChecksum
    simp only
    split
    · split <;> simp [bytesLeft, hps]
    · simp [bytesLeft, hps]
  all_goals cases hparse

/-! ## A decode with enough bytes waiting ends -/

/-- What a run of a decode reaches: a result, a front part of `rxq` of at most `n` bytes popped. -/
def EndsWithin (n : Nat) (s t : State) : Prop :=
  t.phase = .result ∧ ∃ popped, s.rxq = popped ++ t.rxq ∧ popped.length ≤ n

theorem EndsWithin.mono {m n : Nat} {s t : State} (h : EndsWithin m s t) (hmn : m ≤ n) : EndsWithin n s t := by
  obtain ⟨hresult, popped, hrxq, hlen⟩ := h
  exact ⟨hresult, popped, hrxq, Nat.le_trans hlen hmn⟩

/-- A decode that has ended takes two steps to its result and then waits. -/
theorem reaches_result_of_ended {k : Nat} {s : State} (h : Invariant s) (hphase : s.phase = .rx)
    (hheld : s.env.resetHeld = false) (hended : s.ps = .done ∨ s.ps = .fail)
    (hs : s.env.schedule = List.replicate (k + 2) .seq) : Reaches (k + 2) s (EndsWithin 0 s) := by
  have hu : step s = .next { scheduleTaken s (List.replicate (k + 1) .seq) with phase := .interp } :=
    (step_rx h hheld hs hphase).trans (rxStep_ended (s := scheduleTaken s _) hended)
  obtain ⟨c, p, n, ht⟩ := step_interp (h.step hu) hheld (rest := List.replicate k .seq) rfl rfl
  refine reaches_succ hu (reaches_succ ht ?_)
  refine (reaches_result_of_result ?_ ?_ rfl ?_).imp fun t ⟨hresult, hrxq⟩ =>
    ⟨hresult, [], hrxq.symm, Nat.le_refl 0⟩
  · exact h.valid
  · exact hheld
  · rfl

/-- With every byte it may pop waiting, a decode of at most `k` more bytes ends its command in `k + 2` steps. -/
theorem reaches_result_of_bytes {k : Nat} {s : State} (h : Invariant s) (hphase : s.phase = .rx)
    (hheld : s.env.resetHeld = false) (hk : bytesLeft s ≤ k) (hbytes : bytesLeft s ≤ s.rxq.length)
    (hs : s.env.schedule = List.replicate (k + 2) .seq) :
    Reaches (k + 2) s (EndsWithin (bytesLeft s) s) := by
  induction k generalizing s with
  | zero =>
    have hended := (isReadState_or_ended (parserPlaced_rx.1 (hphase ▸ h.placed))).resolve_left
      fun hread => Nat.not_lt_of_le hk (bytesLeft_pos hread)
    exact (reaches_result_of_ended h hphase hheld hended hs).imp fun t ht => ht.mono (Nat.zero_le _)
  | succ k ih =>
    rcases isReadState_or_ended (parserPlaced_rx.1 (hphase ▸ h.placed)) with hread | hended
    · have hpos := bytesLeft_pos hread
      obtain ⟨b, rest, hq⟩ : ∃ b rest, s.rxq = b :: rest :=
        List.exists_cons_of_length_pos (Nat.lt_of_lt_of_le hpos hbytes)
      obtain ⟨u, hparse⟩ := parseByte_ok (s := { scheduleTaken s (List.replicate (k + 2) .seq) with rxq := rest })
        b hread fun hps => h.room_of_rpar hps
      have hu : step s = .next u :=
        (step_rx h hheld hs hphase).trans (rxStep_parses (s := scheduleTaken s _) hread hq hparse)
      have keeps := parseByte_keeps hparse
      have hfewer : bytesLeft u < bytesLeft s :=
        bytesLeft_parseByte (s := { scheduleTaken s _ with rxq := rest }) h.parser hparse
      have hrxq : u.rxq = rest := keeps.rxq
      have hlen : s.rxq.length = rest.length + 1 := by rw [hq, List.length_cons]
      refine reaches_succ hu ((ih (h.step hu) (keeps.phase.trans hphase) ?_ (by omega) ?_ ?_).imp ?_)
      · rw [keeps.env]
        exact hheld
      · rw [hrxq]
        omega
      · rw [keeps.env]
      · rintro t ⟨hresult, popped, hpopped, hshort⟩
        refine ⟨hresult, b :: popped, ?_, ?_⟩
        · rw [hq, ← hrxq, hpopped, List.cons_append]
        · rw [List.length_cons]
          omega
    · exact (reaches_result_of_ended h hphase hheld hended hs).imp fun t ht => ht.mono (Nat.zero_le _)

/-- Settles O57: no parser state has more than 259 bytes left to pop. -/
theorem decodeEndsWithinTheLongestFrame : Obligations.DecodeEndsWithinTheLongestFrame := by
  intro s hs hphase hheld hbytes hschedule
  have hleft := bytesLeft_le s
  obtain ⟨t, hrun, hresult, popped, hpopped, hlen⟩ := (reaches_result_of_bytes (k := 259) (invariant_iff.1 hs)
    hphase hheld hleft (Nat.le_trans hleft hbytes) hschedule).imp fun t ht => ht.mono hleft
  exact ⟨t, popped, hrun, hresult, hpopped, hlen⟩

end Sys2Proof.Machine
end

section
/-! Whole exchanges (42_session.md R160): a record accepted, its request sent, a response frame received as it
arrives, and the result taken. -/

namespace Sys2Proof.Machine

open Sys2Proof.Claims

/-! ## A frame received byte by byte (40_codec.md R107 to R113) -/

/-- The parser has read a frame of these fields up to the bytes `bs`. -/
def Awaits (id cmd : Byte) (ps : List Byte) (t : State) (bs : List Byte) : Prop :=
  match t.ps with
  | .ah1 => bs = encodeFrame id cmd ps
  | .ah2 => 0xFF :: bs = encodeFrame id cmd ps
  | .rid => 0xFF :: 0xFF :: bs = encodeFrame id cmd ps
  | .rlen => t.pId = id ∧ 0xFF :: 0xFF :: id :: bs = encodeFrame id cmd ps
  | .rcmd => t.pId = id ∧ t.pLen = lengthByte ps.length ∧
      bs = cmd :: (ps ++ [chk8 id (lengthByte ps.length) cmd ps])
  | .rpar => t.pId = id ∧ t.pLen = lengthByte ps.length ∧ t.pCmd = cmd ∧
      ∃ qs, receivedParams t ++ qs = ps ∧ bs = qs ++ [chk8 id (lengthByte ps.length) cmd ps]
  | .rchk => t.pId = id ∧ t.pLen = lengthByte ps.length ∧ t.pCmd = cmd ∧ receivedParams t = ps ∧
      bs = [chk8 id (lengthByte ps.length) cmd ps]
  | .done => t.pCmd = cmd ∧ receivedParams t = ps ∧ bs = []
  | .idle => False
  | .fail => False

section Receives

variable {id cmd b : Byte} {ps bs : List Byte} {t : State}

/-- A fresh decode has the whole frame before it. -/
theorem awaits_of_ah1 (h : t.ps = .ah1) : Awaits id cmd ps t (encodeFrame id cmd ps) := by
  simp [Awaits, h]

/-- The parser that has nothing left to read of a frame is DONE, with the frame's fields. -/
theorem done_of_awaits_nil (h : Awaits id cmd ps t []) :
    t.ps = .done ∧ t.pCmd = cmd ∧ receivedParams t = ps := by
  unfold Awaits at h
  split at h
  case h_8 hps =>
    obtain ⟨hcmd, hparams, -⟩ := h
    exact ⟨hps, hcmd, hparams⟩
  all_goals simp [encodeFrame_eq_cons] at h

/-- While bytes of a frame are left, the parser reads. -/
theorem isReadState_of_awaits_cons (h : Awaits id cmd ps t (b :: bs)) : isReadState t.ps = true := by
  unfold Awaits at h
  split at h
  case h_8 => simp at h
  case h_9 | h_10 => exact h.elim
  all_goals simp [*, isReadState]

variable (hlen : ps.length ≤ 253)
include hlen

theorem awaits_readLength (hps : t.ps = .rlen) (h : Awaits id cmd ps t (b :: bs)) :
    Awaits id cmd ps (readLength b t) bs := by
  simp only [Awaits, hps, encodeFrame_eq_cons, List.cons.injEq, true_and] at h
  obtain ⟨hid, rfl, rfl⟩ := h
  have hlong : ¬ ((lengthByte ps.length).toNat < 2 ∧ t.cfg.shortLength = .abort) := by
    rw [toNat_lengthByte hlen]
    omega
  rw [readLength, if_neg hlong]
  exact ⟨hid, rfl, rfl⟩

theorem awaits_readCommand (hps : t.ps = .rcmd) (hn : t.pN = 0) (h : Awaits id cmd ps t (b :: bs)) :
    Awaits id cmd ps (readCommand b t) bs := by
  simp only [Awaits, hps, List.cons.injEq] at h
  obtain ⟨hid, hlength, rfl, rfl⟩ := h
  have hempty : receivedParams (readCommand b t) = [] := by
    have hn' : (readCommand b t).pN = 0 := hn
    rw [receivedParams, hn', List.take_zero]
  have hcount : t.pLen.toNat = 2 + ps.length := hlength ▸ toNat_lengthByte hlen
  cases ps with
  | nil =>
    have hps' : (readCommand b t).ps = .rchk := by simp [readCommand, hcount]
    simp only [Awaits, hps']
    exact ⟨hid, hlength, rfl, hempty, rfl⟩
  | cons q qs =>
    have hps' : (readCommand b t).ps = .rpar := by simp [readCommand, hcount]
    simp only [Awaits, hps']
    exact ⟨hid, hlength, rfl, q :: qs, by rw [hempty, List.nil_append], rfl⟩

theorem awaits_readParam (hps : t.ps = .rpar) (hholds : parserHolds t = true) (hroom : t.pN < t.pBuf.length)
    (h : Awaits id cmd ps t (b :: bs)) :
    ∃ u, readParam b t = .ok u ∧ Awaits id cmd ps u bs := by
  simp only [Awaits, hps] at h
  obtain ⟨hid, hlength, hcmd, qs, hparams, hbs⟩ := h
  obtain ⟨hmore, -⟩ := (parserHolds_rpar hps).1 hholds
  have hcount : t.pLen.toNat = 2 + ps.length := hlength ▸ toNat_lengthByte hlen
  have hreceived : (receivedParams t).length = t.pN :=
    List.length_take_of_le (Nat.le_of_lt hroom)
  have hsplit : t.pN + qs.length = ps.length := by rw [← hreceived, ← List.length_append, hparams]
  cases qs with
  | nil => rw [List.length_nil] at hsplit; omega
  | cons q qs =>
    obtain ⟨rfl, rfl⟩ := List.cons.inj hbs
    refine ⟨_, if_pos hroom, ?_⟩
    have hnext : (t.pBuf.set t.pN b).take (t.pN + 1) ++ qs = ps := by
      rw [take_succ_set hroom, List.append_assoc]
      exact hparams
    rw [List.length_cons] at hsplit
    cases qs with
    | nil =>
      have hlast : t.pN + 1 = t.pLen.toNat - 2 := by rw [List.length_nil] at hsplit; omega
      simp only [Awaits, rearm_ps, hlast, if_true]
      exact ⟨hid, hlength, hcmd, by rw [List.append_nil, hlast] at hnext; exact hnext, rfl⟩
    | cons q' qs =>
      have hmore' : t.pN + 1 ≠ t.pLen.toNat - 2 := by rw [List.length_cons] at hsplit; omega
      simp only [Awaits, rearm_ps, hmore', if_false]
      exact ⟨hid, hlength, hcmd, q' :: qs, hnext, rfl⟩

theorem awaits_readChecksum (hps : t.ps = .rchk) (hholds : parserHolds t = true)
    (h : Awaits id cmd ps t (b :: bs)) : Awaits id cmd ps (readChecksum b t) bs := by
  simp only [Awaits, hps, List.cons.injEq] at h
  obtain ⟨hid, hlength, hcmd, hparams, rfl, rfl⟩ := h
  obtain ⟨-, hsum, -⟩ := (parserHolds_rchk hps).1 hholds
  rw [hid, hlength, hcmd, hparams] at hsum
  have hvalid : checksumHolds t.pSum (chk8 id (lengthByte ps.length) cmd ps) = true := by
    rw [hsum, checksumHolds, chk8, decide_eq_true_eq]
    exact add_sub_cancel _ _
  have hlong : ¬ t.pLen.toNat < 2 := by
    rw [hlength, toNat_lengthByte hlen]
    omega
  simp only [readChecksum, if_pos hvalid, if_neg hlong]
  exact ⟨hcmd, hparams, rfl⟩

/-- The parser takes the next byte of the frame it is reading, and awaits the others. -/
theorem parseByte_awaits (hholds : parserHolds t = true) (hdepth : 253 ≤ t.pBuf.length)
    (h : Awaits id cmd ps t (b :: bs)) : ∃ u, parseByte b t = .ok u ∧ Awaits id cmd ps u bs := by
  have hread := isReadState_of_awaits_cons h
  unfold parseByte
  split
  case h_1 hps =>
    simp only [Awaits, hps, encodeFrame_eq_cons, List.cons.injEq] at h
    obtain ⟨rfl, rfl⟩ := h
    exact ⟨_, rfl, rfl⟩
  case h_2 hps =>
    simp only [Awaits, hps, encodeFrame_eq_cons, List.cons.injEq, true_and] at h
    obtain ⟨rfl, rfl⟩ := h
    exact ⟨_, rfl, rfl⟩
  case h_3 hps =>
    simp only [Awaits, hps, encodeFrame_eq_cons, List.cons.injEq, true_and] at h
    obtain ⟨rfl, rfl⟩ := h
    exact ⟨_, rfl, rfl, rfl⟩
  case h_4 hps => exact ⟨_, rfl, awaits_readLength hlen hps h⟩
  case h_5 hps =>
    obtain ⟨hn, -⟩ := (parserHolds_rcmd hps).1 hholds
    exact ⟨_, rfl, awaits_readCommand hlen hps hn h⟩
  case h_6 hps =>
    obtain ⟨hmore, -⟩ := (parserHolds_rpar hps).1 hholds
    have hbyte := t.pLen.isLt
    exact awaits_readParam hlen hps hholds (by omega) h
  case h_7 hps => exact ⟨_, rfl, awaits_readChecksum hlen hps hholds h⟩
  case h_8 hps | h_9 hps | h_10 hps => simp [hps, isReadState] at hread

end Receives

/-! ## In the middle of an exchange -/

/-- Where an exchange that began in `s₀` stands: instruction `i` in phase `ph`, the request `f` sent or waiting in
`txq`, no byte waiting in `rxq`, and the events `rest` to come. -/
structure Amid (s₀ : State) (i : Instr) (f : List Byte) (ph : Phase) (rest : List Event) (t : State) : Prop where
  inv : Invariant t
  phase : t.phase = ph
  fetched : fetch t = .ok i
  cfg : t.cfg = s₀.cfg
  overrun : t.rxOverrun = s₀.rxOverrun
  notHeld : t.env.resetHeld = false
  taken : t.env.taken = s₀.env.taken
  request : t.env.sent ++ t.txq = s₀.env.sent ++ f
  noByte : t.rxq = []
  schedule : t.env.schedule = rest

/-- What is fetched depends on the configuration and `cur` alone. -/
theorem fetch_congr {s t : State} (hcfg : t.cfg = s.cfg) (hcur : t.cur = s.cur) : fetch t = fetch s := by
  unfold fetch
  rw [hcfg, hcur]

section Exchanges

variable {s₀ t u : State} {i : Instr} {p : Plan} {f : List Byte} {rest : List Event}

/-- An exchange begins with the acceptance of its record. -/
theorem amid_of_accept {c : HostCmd} (hq : quiet s₀) (hoffered : s₀.env.offered = [c])
    (hc : c.wellFormed = true) (hs : s₀.env.schedule = .accept :: rest) :
    Reaches 1 s₀ (Amid s₀ (instrOfOp c) [] .check rest) := by
  obtain ⟨hinv, hidle, hempty, hheld⟩ := hq
  have h := invariant_iff.1 hinv
  have hstep := (step_accept h.valid hheld hs).trans
    ((acceptEvent_idle (s := scheduleTaken s₀ rest) hidle hoffered).trans (if_pos hc))
  have htxq : s₀.txq = [] := h.txq_empty (by simp [hidle])
  exact reaches_one hstep {
    inv := h.step hstep
    phase := rfl
    fetched := fetch_of_wellFormed hc
    cfg := rfl
    overrun := rfl
    notHeld := hheld
    taken := rfl
    request := congrArg (s₀.env.sent ++ ·) htxq
    noByte := hempty
    schedule := rfl }

/-- A step of the sequencer is the running command's, and leaves the rest of the exchange alone. -/
theorem Amid.seq {f' : List Byte} {ph : Phase} (h : Amid s₀ i f ph (.seq :: rest) t)
    (hrun : ph ≠ .idle ∧ ph ≠ .result) (hexec : exec i (scheduleTaken t rest) = .next u)
    (hrequest : u.env.sent ++ u.txq = s₀.env.sent ++ f') (hnoByte : u.rxq = []) :
    step t = .next u ∧ Amid s₀ i f' u.phase rest u := by
  have hstep : step t = .next u :=
    (stepRunsTheDecodedCommand t i rest h.inv.valid h.notHeld h.schedule (h.phase ▸ hrun.1) (h.phase ▸ hrun.2)
      h.fetched).trans hexec
  obtain ⟨hcfg, hcur, hoverrun, henv⟩ := (moves_of_exec hexec).coreKept
  exact ⟨hstep, {
    inv := h.inv.step hstep
    phase := rfl
    fetched := (fetch_congr hcfg hcur).trans h.fetched
    cfg := hcfg.trans h.cfg
    overrun := hoverrun.trans h.overrun
    notHeld := (congrArg Env.resetHeld henv).trans h.notHeld
    taken := (congrArg Env.taken henv).trans h.taken
    request := hrequest
    noByte := hnoByte
    schedule := congrArg Env.schedule henv }⟩

/-- CHECK queues the request. -/
theorem Amid.check (h : Amid s₀ i [] .check (.seq :: rest) t) (hplan : planOf s₀.cfg i = some p)
    (hv : p.verdict = none) (hf : p.request = some f) :
    Reaches 1 t fun u => Amid s₀ i f .tx rest u ∧ u.txq.length = f.length := by
  have htxq : t.txq = [] := h.inv.txq_empty (by simp [h.phase])
  have hsent : t.env.sent = s₀.env.sent := by simpa [htxq] using h.request
  have hexec := exec_check_queued (s := scheduleTaken t rest) (h.cfg ▸ hplan) h.phase hv hf
  obtain ⟨hstep, hamid⟩ := h.seq (f' := f) (by simp) hexec (by simp [queuedState, htxq, hsent]) h.noByte
  exact reaches_one hstep ⟨hamid, by simp [queuedState, htxq]⟩

/-- The line coder takes the request byte by byte. -/
theorem Amid.sends {n : Nat} (h : Amid s₀ i f .tx (List.replicate n .send ++ rest) t) (hn : t.txq.length = n) :
    Reaches n t fun u => Amid s₀ i f .tx rest u ∧ u.txq = [] := by
  induction n generalizing t with
  | zero => exact reaches_zero ⟨h, List.eq_nil_of_length_eq_zero hn⟩
  | succ n ih =>
    obtain ⟨b, bs, hq⟩ := List.exists_cons_of_length_eq_add_one hn
    rw [List.replicate_succ, List.cons_append] at h
    have hstep := (step_send h.inv.valid h.notHeld h.schedule).trans
      (congrArg Host.Outcome.next (sendEvent_of_cons (s := scheduleTaken t _) hq))
    refine reaches_succ hstep (ih ?_ (by rw [hq] at hn; exact Nat.succ.inj hn))
    have hrequest := h.request
    rw [hq] at hrequest
    exact {
      inv := h.inv.step hstep
      phase := h.phase
      fetched := h.fetched
      cfg := h.cfg
      overrun := h.overrun
      notHeld := h.notHeld
      taken := h.taken
      request := by simpa using hrequest
      noByte := h.noByte
      schedule := rfl }

/-- With the request sent, a command that expects a response starts its decode. -/
theorem Amid.startDecode (h : Amid s₀ i f .tx (.seq :: rest) t) (hplan : planOf s₀.cfg i = some p)
    (hr : p.reply = true) (hq : t.txq = []) :
    Reaches 1 t fun u => Amid s₀ i f .rx rest u ∧ u.ps = .ah1 := by
  obtain ⟨-, hdecode, -⟩ := drains_of_plan (s := scheduleTaken t rest) (h.cfg ▸ hplan) h.phase rfl
  obtain ⟨hstep, hamid⟩ := h.seq (f' := f) (by simp) (hdecode hq hr) h.request h.noByte
  exact reaches_one hstep ⟨hamid, rfl⟩

end Exchanges

/-- The events of bytes that are each popped as they arrive. -/
def arrivals (bs : List Byte) : List Event := bs.flatMap fun b => [.arrive b, .seq]

section Responses

variable {s₀ t : State} {i : Instr} {f : List Byte} {rest : List Event} {rid st : Byte} {ps : List Byte}

/-- `t` with `b` arrived in its empty `rxq`: the parser's registers stay, the timer is not armed. -/
abbrev arrived (b : Byte) (rest : List Event) (t : State) : State :=
  { scheduleTaken t rest with rxq := [b], tArmed := false }

/-- An arriving byte finds room in the empty `rxq` (R142). -/
theorem Amid.arrive {b : Byte} (h : Amid s₀ i f .rx (.arrive b :: rest) t) : step t = .next (arrived b rest t) := by
  obtain ⟨-, -, -, -, -, hfifo⟩ := (Config.valid_iff t.cfg).1 h.inv.valid
  have hroom : t.rxq.length < t.cfg.rxFifoDepth := by
    rw [h.noByte]
    exact hfifo
  obtain ⟨hkept, -⟩ := arrivingByteIsKeptOrLost t b rest h.inv.valid h.notHeld h.schedule
  rw [hkept hroom, h.noByte]
  rfl

/-- A byte of the response arrives and is popped. -/
theorem Amid.receive {b : Byte} {bs : List Byte} (hlen : ps.length ≤ 253)
    (h : Amid s₀ i f .rx (.arrive b :: .seq :: rest) t) (hawaits : Awaits rid st ps t (b :: bs)) :
    Reaches 2 t fun u => Amid s₀ i f .rx rest u ∧ Awaits rid st ps u bs := by
  have harrive := h.arrive
  have hinv := h.inv.step harrive
  obtain ⟨u, hparse, hnext⟩ :=
    parseByte_awaits (t := { arrived b rest t with rxq := [] }) hlen h.inv.parser h.inv.depth_ge hawaits
  have hread : isReadState t.ps = true := isReadState_of_awaits_cons hawaits
  have hstep : step (arrived b (.seq :: rest) t) = .next u :=
    (step_rx hinv h.notHeld rfl h.phase).trans (rxStep_parses (s := arrived b rest t) hread rfl hparse)
  have keeps := parseByte_keeps hparse
  have hrequest : u.env.sent ++ u.txq = t.env.sent ++ t.txq := by
    have henv : u.env = { t.env with schedule := rest } := keeps.env
    have htxq : u.txq = t.txq := keeps.txq
    rw [henv, htxq]
  exact reaches_succ harrive (reaches_one hstep ⟨{
    inv := hinv.step hstep
    phase := keeps.phase.trans h.phase
    fetched := (fetch_congr keeps.cfg keeps.cur).trans h.fetched
    cfg := keeps.cfg.trans h.cfg
    overrun := keeps.rxOverrun.trans h.overrun
    notHeld := (congrArg Env.resetHeld keeps.env).trans h.notHeld
    taken := (congrArg Env.taken keeps.env).trans h.taken
    request := hrequest.trans h.request
    noByte := keeps.rxq
    schedule := congrArg Env.schedule keeps.env }, hnext⟩)

/-- The rest of a response arrives and is popped: the parser is DONE. -/
theorem Amid.receives {bs : List Byte} (hlen : ps.length ≤ 253) (h : Amid s₀ i f .rx (arrivals bs ++ rest) t)
    (hawaits : Awaits rid st ps t bs) :
    Reaches (arrivals bs).length t fun u => Amid s₀ i f .rx rest u ∧ Awaits rid st ps u [] := by
  induction bs generalizing t with
  | nil => exact reaches_zero ⟨h, hawaits⟩
  | cons b bs ih =>
    have hcount : (arrivals (b :: bs)).length = 2 + (arrivals bs).length :=
      List.length_append (as := [.arrive b, .seq])
    rw [hcount]
    exact (h.receive hlen hawaits).bind fun u ⟨hamid, hnext⟩ => ih hamid hnext

/-- The end of the decode leads to INTERP, with the response's fields as they were decoded. -/
theorem Amid.toInterp (h : Amid s₀ i f .rx (.seq :: rest) t) (hawaits : Awaits rid st ps t []) :
    Reaches 1 t fun u => Amid s₀ i f .interp rest u ∧ u.ps = .done ∧ u.pCmd = st ∧ receivedParams u = ps := by
  obtain ⟨hdone, hcmd, hparams⟩ := done_of_awaits_nil hawaits
  have hstep := (step_rx h.inv h.notHeld h.schedule h.phase).trans
    (rxStep_ended (s := scheduleTaken t rest) (.inl hdone))
  exact reaches_one hstep ⟨{
    inv := h.inv.step hstep
    phase := rfl
    fetched := h.fetched
    cfg := h.cfg
    overrun := h.overrun
    notHeld := h.notHeld
    taken := h.taken
    request := h.request
    noByte := h.noByte
    schedule := rfl }, hdone, hcmd, hparams⟩

/-- Where an exchange ends: idle, the queues empty, the request sent, the result `r` taken. -/
def Exchanged (s₀ : State) (f : List Byte) (r : Result) (t : State) : Prop :=
  t.phase = .idle ∧ t.rxq = [] ∧ t.txq = [] ∧ t.env.sent = s₀.env.sent ++ f ∧ t.env.taken = s₀.env.taken ++ [r]

/-- The interpretation finishes the command, and the host takes the result. -/
theorem Amid.finishes {p : Plan} {k : Status} {q : Payload} {n : Info}
    (h : Amid s₀ i f .interp [.seq, .take] t) (hplan : planOf s₀.cfg i = some p) (hdone : t.ps = .done)
    (hint : interpretOf i (scheduleTaken t [.take]) = .next (finish k q n (scheduleTaken t [.take]))) :
    Reaches 2 t (Exchanged s₀ f { status := k, overrun := s₀.rxOverrun, payload := q, info := n }) := by
  have hexec := (exec_interp_done (s := scheduleTaken t [.take]) (h.cfg ▸ hplan) h.phase hdone).trans hint
  obtain ⟨hstep, hamid⟩ := h.seq (f' := f) (by simp) hexec h.request h.noByte
  obtain ⟨htake, -⟩ := takenResultFreesTheSequencer _ [] hamid.inv.valid hamid.notHeld hamid.schedule
  have htxq : t.txq = [] := h.inv.txq_empty (by simp [h.phase])
  have hsent : t.env.sent = s₀.env.sent ++ f := by simpa [htxq] using h.request
  refine reaches_succ hstep (reaches_one (htake rfl) ⟨rfl, h.noByte, htxq, hsent, ?_⟩)
  show t.env.taken ++ [_] = s₀.env.taken ++ [_]
  rw [h.taken, ← h.overrun]
  rfl

end Responses

/-! ## The whole exchange -/

/-- The length of an exchange, stage by stage. -/
theorem length_exchange (sends : Nat) (response : List Byte) :
    (exchange sends response).length =
      1 + (1 + (sends + (1 + ((arrivals response).length + (1 + 2))))) := by
  simp only [exchange, arrivals, List.length_append, List.length_replicate, List.length_cons, List.length_nil]
  omega

/-- The events of an exchange, stage by stage. -/
theorem exchange_eq_append (sends : Nat) (response : List Byte) :
    exchange sends response =
      .accept :: .seq :: (List.replicate sends .send ++ .seq :: (arrivals response ++ .seq :: [.seq, .take])) := by
  simp [exchange, arrivals]

/-- What an interpretation makes of a response with this command byte and these parameters. -/
def Interprets (c : Config) (i : Instr) (st : Byte) (ps : List Byte) (k : Status) (q : Payload) (n : Info) : Prop :=
  ∀ t, Invariant t → t.cfg = c → t.pCmd = st → receivedParams t = ps →
    interpretOf i t = .next (finish k q n t)

/-- A command that passes its checks and expects a response goes through its whole exchange, and the result taken
is what it makes of the response. -/
theorem reaches_exchanged {s : State} {c : HostCmd} {i : Instr} {p : Plan} {f : List Byte} {rid st : Byte}
    {ps : List Byte} {k : Status} {q : Payload} {n : Info} (hquiet : quiet s) (hoffered : s.env.offered = [c])
    (hc : c.wellFormed = true) (hi : instrOfOp c = i) (hplan : planOf s.cfg i = some p) (hv : p.verdict = none)
    (hf : p.request = some f) (hr : p.reply = true) (hlen : ps.length ≤ 253)
    {sends : Nat} (hsends : f.length = sends) (hs : s.env.schedule = exchange sends (encodeFrame rid st ps))
    (hint : Interprets s.cfg i st ps k q n) :
    Reaches (exchange sends (encodeFrame rid st ps)).length s
      (Exchanged s f { status := k, overrun := s.rxOverrun, payload := q, info := n }) := by
  subst hi hsends
  rw [exchange_eq_append] at hs
  rw [length_exchange]
  refine (amid_of_accept hquiet hoffered hc hs).bind fun t₁ h₁ => ?_
  refine (h₁.check hplan hv hf).bind fun t₂ ⟨h₂, hqueued⟩ => ?_
  refine (h₂.sends hqueued).bind fun t₃ ⟨h₃, hsent⟩ => ?_
  refine (h₃.startDecode hplan hr hsent).bind fun t₄ ⟨h₄, hstart⟩ => ?_
  refine (h₄.receives hlen (awaits_of_ah1 hstart)).bind fun t₅ ⟨h₅, hreceived⟩ => ?_
  refine (h₅.toInterp hreceived).bind fun t₆ ⟨h₆, hdone, hcmd, hparams⟩ => ?_
  exact h₆.finishes hplan hdone (hint (scheduleTaken t₆ [.take]) (h₆.inv.withEnv _) h₆.cfg hcmd hparams)

/-! ## PING -/

section Interpretations

variable {c : Config} {i : Instr} {st : Byte} {ps : List Byte}

theorem interprets_status_ok (hi : interpretOf i = interpretStatus) (hst : st = c.noError) :
    Interprets c i st ps .ok .none {} := by
  intro t _ hcfg hcmd _
  rw [hi]
  exact if_pos (by rw [hcmd, hcfg, hst])

theorem interprets_status_device (hi : interpretOf i = interpretStatus) (hst : st ≠ c.noError) :
    Interprets c i st ps .device .none { code := st } := by
  intro t _ hcfg hcmd _
  subst hcmd
  rw [hi]
  exact if_neg (by rwa [hcfg])

end Interpretations

/-- Settles O55: PING passes its checks, and makes OK or DEVICE of the response's command byte. -/
theorem pingExchangeReportsTheDevice : Obligations.PingExchangeReportsTheDevice := by
  intro s id rid st ps hquiet ht hb hlen hoffered hs
  have hv : (planPing s.cfg id).verdict = none := (planPing_verdict ht).trans (if_neg hb)
  by_cases hst : st = s.cfg.noError
  · simp only [if_pos hst]
    exact reaches_exchanged hquiet hoffered rfl rfl rfl hv rfl rfl hlen rfl hs (interprets_status_ok rfl hst)
  · simp only [if_neg hst]
    exact reaches_exchanged hquiet hoffered rfl rfl rfl hv rfl rfl hlen rfl hs (interprets_status_device rfl hst)

/-! ## READ_REG -/

section Classes

variable {t : State} {c : Config} {i : Instr} {st : Byte} {ps : List Byte}

/-- Under the invariant as many parameters are received as `p_n` counts. -/
theorem pN_of_receivedParams (h : Invariant t) (hparams : receivedParams t = ps) : t.pN = ps.length := by
  rw [← hparams, receivedParams, List.length_take_of_le h.room]

/-- The parameters of a decoded response, where READ_REG reads them. -/
theorem getElem?_pBuf (h : Invariant t) (hparams : receivedParams t = ps) {k : Nat} (hk : k < ps.length) :
    t.pBuf[k]? = ps[k]? := by
  rw [← pN_of_receivedParams h hparams] at hk
  rw [← hparams, receivedParams, List.getElem?_take_of_lt hk]

theorem interprets_read_empty (hi : interpretOf i = interpretRead) :
    Interprets c i st [] .emptyResponse .none {} := by
  intro t h _ _ hparams
  rw [hi]
  exact interpretRead_empty (pN_of_receivedParams h hparams)

theorem interprets_read_byte (hi : interpretOf i = interpretRead) (b0 : Byte) :
    Interprets c i st [b0] .ok (.byte b0) {} := by
  intro t h _ _ hparams
  rw [hi]
  exact interpretRead_byte (pN_of_receivedParams h hparams) (getElem?_pBuf h hparams (by simp))

theorem interprets_read_word (hi : interpretOf i = interpretRead) (b0 b1 : Byte) :
    Interprets c i st [b0, b1] .ok (.word (le16 b0 b1)) {} := by
  intro t h _ _ hparams
  rw [hi]
  exact interpretRead_word (pN_of_receivedParams h hparams) (getElem?_pBuf h hparams (by simp))
    (getElem?_pBuf h hparams (by simp))

theorem interprets_read_raw (hi : interpretOf i = interpretRead) (hlen : 3 ≤ ps.length) :
    Interprets c i st ps .ok (.raw ps) {} := by
  intro t h _ _ hparams
  rw [hi, ← hparams]
  exact interpretRead_raw (pN_of_receivedParams h hparams ▸ hlen) h.room

end Classes

/-- Settles O56: READ_REG passes its checks, and classifies the response by its parameter count. -/
theorem readRegExchangeReturnsTheValue : Obligations.ReadRegExchangeReturnsTheValue := by
  intro s id addr count rid st ps hquiet ht hb hmax hlen hoffered hs
  have hv : (planRead s.cfg id addr count).verdict = none :=
    (planRead_verdict ht hb count).trans (checkBudget_eq_none.2 hmax)
  have exchanged : ∀ k q n, Interprets s.cfg (.readReg id addr count) st ps k q n →
      Reaches (exchange 8 (encodeFrame rid st ps)).length s
        (Exchanged s (readFrame s.cfg id addr count)
          { status := k, overrun := s.rxOverrun, payload := q, info := n }) :=
    fun _ _ _ => reaches_exchanged hquiet hoffered rfl rfl rfl hv rfl rfl hlen rfl hs
  match ps with
  | [] => exact exchanged _ _ _ (interprets_read_empty rfl)
  | [b0] => exact exchanged _ _ _ (interprets_read_byte rfl b0)
  | [b0, b1] => exact exchanged _ _ _ (interprets_read_word rfl b0 b1)
  | b0 :: b1 :: b2 :: bs => exact exchanged _ _ _ (interprets_read_raw rfl (by simp))

end Sys2Proof.Machine
end

section
/-! The codec (40_codec.md R100 to R123): the sum and the checksum, SEND and RECV, the parser's table row by row, and
the decode of a whole frame, sound or with one byte changed. -/

namespace Sys2Proof.Machine

open Sys2Proof.Claims

/-! ## The sum and the checksum -/

/-- Settles O6: by induction from the last byte, which the fold adds last. -/
theorem runningSumIsTheWholeSum : Obligations.RunningSumIsTheWholeSum := by
  intro bs
  refine ⟨?_, BitVec.toNat_ofNat _ _⟩
  induction bs using List.reverseRecOn with
  | nil => rfl
  | append_singleton bs b ih =>
    rw [sum8_append_singleton, ih, List.foldl_append]
    rfl

/-- The test of RCHK accepts one byte alone (R102, R113). -/
theorem checksumHolds_iff {sum c : Byte} : checksumHolds sum c = true ↔ c = 0xFF - sum := by
  refine ⟨eq_sub_of_checksumHolds, fun h => ?_⟩
  rw [checksumHolds, decide_eq_true_eq, h]
  exact add_sub_cancel _ _

/-- Settles O7: the byte the test accepts is `chk8` of the bytes summed. -/
theorem checksumTestIsValidity : Obligations.ChecksumTestIsValidity :=
  fun _ _ _ _ _ => checksumHolds_iff

/-- One byte changed changes the sum (R100). -/
theorem sum8_set_ne {bs : List Byte} {k : Nat} {b : Byte} (hk : k < bs.length) (hb : bs[k]? ≠ some b) :
    sum8 (bs.set k b) ≠ sum8 bs := by
  induction bs generalizing k with
  | nil => exact absurd hk (Nat.not_lt_zero k)
  | cons a bs ih =>
    cases k with
    | zero =>
      rw [List.set_cons_zero, sum8_cons, sum8_cons]
      exact fun h => hb (congrArg some (add_right_cancel h).symm)
    | succ k =>
      rw [List.set_cons_succ, sum8_cons, sum8_cons]
      exact fun h => ih (Nat.lt_of_succ_lt_succ hk) hb (add_left_cancel h)

/-! ## SEND, RECV and the drain -/

/-- Settles O13: SEND's verdict decides CHECK, and it expects no response. -/
theorem sendRunsByItsRule : Obligations.SendRunsByItsRule := by
  intro id cmd data s
  refine ⟨fun hp ht => ?_, fun hp ht hmax => ?_, fun hp ht hmax => ?_, fun hp => drains_of_plan rfl hp rfl⟩
  · exact exec_check_refused rfl hp (r := .badTarget) (by simp [planSend, checkTarget_of_not_ok ht])
  · exact exec_check_refused rfl hp (r := .tooManyParams)
      ((planSend_verdict ht cmd data).trans (checkBudget_exceeded hmax))
  · exact exec_check_queued rfl hp ((planSend_verdict ht cmd data).trans (checkBudget_eq_none.2 hmax)) rfl

/-- Settles O14: RECV has nothing to check or send, and its packet is what the buffer holds below `p_n`. -/
theorem recvRunsByItsRule : Obligations.RecvRunsByItsRule := by
  intro s
  refine ⟨fun hp => exec_check (p := planRecv) rfl hp, fun hp hps room => ?_, fun hp hps => exec_interp_fail rfl hp hps⟩
  rw [exec_interp_done rfl hp hps, interpretOf, interpretPacket, decodedParams_of_room room]
  rfl

/-- Settles O27: R163's `response_expected` is the reply of the command's plan. -/
theorem everyCommandDrainsBeforeItGoesOn : Obligations.EveryCommandDrainsBeforeItGoesOn := by
  intro i reply s hexpected hp
  obtain ⟨p, hplan, hreply⟩ := plan_of_responseExpected hexpected
  exact drains_of_plan hplan hp hreply

/-! ## The parser's rows -/

/-- The state with the head of `rxq` popped, and `rest` left waiting (R143). -/
abbrev popped (s : State) (rest : List Byte) : State := { s with rxq := rest }

section Rows

variable {s : State} {b : Byte}

theorem parseByte_header_ok {here next : PState} (hps : s.ps = here)
    (hrow : here = .ah1 ∧ next = .ah2 ∨ here = .ah2 ∧ next = .rid) (hb : b = 0xFF) :
    parseByte b s = .ok (rearm { s with ps := next }) := by
  rcases hrow with ⟨rfl, rfl⟩ | ⟨rfl, rfl⟩
  all_goals
    rw [parseByte, hps]
    exact congrArg Except.ok (if_pos hb)

theorem parseByte_header_bad (hps : s.ps = .ah1 ∨ s.ps = .ah2) (hb : b ≠ 0xFF) :
    parseByte b s = .ok (failDecode .framing { state := psCode s.ps, byte := b } s) := by
  rcases hps with hps | hps
  all_goals
    rw [parseByte, hps]
    exact congrArg Except.ok (if_neg hb)

theorem parseByte_rid (hps : s.ps = .rid) : parseByte b s = .ok (readId b s) := by
  rw [parseByte, hps]

theorem parseByte_rlen_ok (hps : s.ps = .rlen) (h : 2 ≤ b.toNat ∨ s.cfg.shortLength = .zeroParams) :
    parseByte b s = .ok (rearm { s with pLen := b, pSum := s.pSum + b, ps := .rcmd }) := by
  have hpasses : ¬ (b.toNat < 2 ∧ s.cfg.shortLength = .abort) := by
    rintro ⟨hshort, habort⟩
    rcases h with hlong | hzero
    · omega
    · cases habort.symm.trans hzero
  rw [parseByte, hps]
  exact congrArg Except.ok (if_neg hpasses)

theorem parseByte_rlen_short (hps : s.ps = .rlen) (hshort : b.toNat < 2) (habort : s.cfg.shortLength = .abort) :
    parseByte b s =
      .ok (failDecode .length { byte := b } { s with pLen := b, pSum := s.pSum + b }) := by
  rw [parseByte, hps]
  exact congrArg Except.ok (if_pos ⟨hshort, habort⟩)

theorem parseByte_rcmd (hps : s.ps = .rcmd) {next : PState}
    (hnext : (if s.pLen.toNat ≤ 2 then PState.rchk else .rpar) = next) :
    parseByte b s = .ok (rearm { s with pCmd := b, pSum := s.pSum + b, ps := next }) := by
  rw [parseByte, hps, ← hnext]
  rfl

theorem parseByte_rpar (hps : s.ps = .rpar) (hroom : s.pN < s.pBuf.length) {next : PState}
    (hnext : (if s.pN + 1 = s.pLen.toNat - 2 then PState.rchk else .rpar) = next) :
    parseByte b s = .ok (rearm { s with
      pBuf := s.pBuf.set s.pN b, pN := s.pN + 1, pSum := s.pSum + b, ps := next }) := by
  rw [parseByte, hps, ← hnext]
  exact if_pos hroom

theorem parseByte_rchk_ok (hps : s.ps = .rchk) (hsum : s.pSum + b = 0xFF) (hlong : 2 ≤ s.pLen.toNat) :
    parseByte b s = .ok (rearm { s with pChk := b, ps := .done }) := by
  have hvalid : checksumHolds s.pSum b = true := decide_eq_true hsum
  rw [parseByte, hps]
  exact congrArg Except.ok ((if_pos hvalid).trans (if_neg (Nat.not_lt_of_le hlong)))

theorem parseByte_rchk_bad (hps : s.ps = .rchk) (hsum : s.pSum + b ≠ 0xFF) :
    parseByte b s =
      .ok (failDecode .checksum { expected := 0xFF - s.pSum, received := b } { s with pChk := b }) := by
  have hinvalid : ¬ checksumHolds s.pSum b = true := fun h => hsum (of_decide_eq_true h)
  rw [parseByte, hps]
  exact congrArg Except.ok (if_neg hinvalid)

theorem parseByte_rchk_short (hps : s.ps = .rchk) (hsum : s.pSum + b = 0xFF) (hshort : s.pLen.toNat < 2) :
    parseByte b s = .ok (failDecode .length { byte := s.pLen } { s with pChk := b }) := by
  have hvalid : checksumHolds s.pSum b = true := decide_eq_true hsum
  rw [parseByte, hps]
  exact congrArg Except.ok ((if_pos hvalid).trans (if_pos hshort))

/-- The parser steps in its read states alone. -/
theorem isReadState_of_parseByte {t : State} (h : parseByte b s = .ok t) : isReadState s.ps = true := by
  unfold parseByte at h
  split at h
  case h_8 | h_9 | h_10 => cases h
  all_goals simp only [*, isReadState]

/-- In RX each of the twelve commands runs the parser on the waiting byte (R123, R160). -/
theorem exec_parses {i : Instr} {rest : List Byte} {t : State} (hi : responseExpected s.cfg i ≠ none)
    (hp : s.phase = .rx) (hq : s.rxq = b :: rest) (hparse : parseByte b (popped s rest) = .ok t) :
    exec i s = .next t := by
  obtain ⟨reply, hreply⟩ := Option.ne_none_iff_exists'.1 hi
  obtain ⟨p, hplan, -⟩ := plan_of_responseExpected hreply
  have hread : isReadState s.ps = true := isReadState_of_parseByte (s := popped s rest) hparse
  rw [exec_eq_runCommand hplan, runCommand, hp]
  exact rxStep_parses hread hq hparse

end Rows

/-- Settles O28: each clause is the parser's row on the state with the byte popped. -/
theorem parserFollowsItsTable : Obligations.ParserFollowsItsTable := by
  intro i s b rest hi hp hq
  have runs : ∀ {t}, parseByte b (popped s rest) = .ok t → exec i s = .next t := exec_parses hi hp hq
  refine ⟨fun hps hb => ?_, fun hps hb => ?_, fun hps hb => ?_, fun hps hb => ?_, fun hps => ?_, fun hps h => ?_,
    fun hps hshort habort => ?_, fun hps h => ?_, fun hps h => ?_, fun hps hroom h => ?_, fun hps hroom h => ?_,
    fun hps hsum hlong => ?_, fun hps hsum => ?_, fun hps hsum hshort => ?_⟩
  · exact runs (parseByte_header_ok hps (.inl ⟨rfl, rfl⟩) hb)
  · rw [runs (parseByte_header_bad (.inl hps) hb), hps]
    rfl
  · exact runs (parseByte_header_ok hps (.inr ⟨rfl, rfl⟩) hb)
  · rw [runs (parseByte_header_bad (.inr hps) hb), hps]
    rfl
  · exact runs (parseByte_rid hps)
  · exact runs (parseByte_rlen_ok hps h)
  · exact runs (parseByte_rlen_short hps hshort habort)
  · exact runs (parseByte_rcmd (s := popped s rest) hps (if_pos h))
  · exact runs (parseByte_rcmd (s := popped s rest) hps (if_neg (Nat.not_le_of_lt h)))
  · rw [runs (parseByte_rpar (s := popped s rest) hps hroom (if_neg h)), rearm]
    simp only [hps, timerArmed, isReadState, Bool.true_and]
  · exact runs (parseByte_rpar (s := popped s rest) hps hroom (if_pos h))
  · exact runs (parseByte_rchk_ok hps hsum hlong)
  · exact runs (parseByte_rchk_bad hps hsum)
  · exact runs (parseByte_rchk_short hps hsum hshort)

end Sys2Proof.Machine
end

section
/-! The decode of a whole frame, sound or with one byte changed (40_codec.md R120 to R122). The parser reads a frame up
to its checksum whatever that byte is; then the checksum test alone decides. -/

namespace Sys2Proof.Machine

open Sys2Proof.Claims

/-! ## Results with a payload -/

section Payloads

variable {s t : State} {p : Plan}

/-- A result from CHECK is a refusal. -/
theorem payload_checkStep (p : Plan) (s : State) (ht : (checkStep p s).phase = .result) :
    (checkStep p s).res.payload = .none := by
  rcases checkStep_cases p s with ⟨r, -, e⟩ | ⟨-, f, -, e⟩ | ⟨-, -, -, e⟩ | ⟨-, -, -, e⟩ <;> rw [e] at ht ⊢
  · rfl
  all_goals cases ht

/-- A result from TX is the plain success of a command without a response. -/
theorem payload_txStep (hp : s.phase = .tx) (ht : (txStep p s).phase = .result) :
    (txStep p s).res.payload = .none := by
  rcases txStep_cases p s with ⟨-, e⟩ | ⟨-, -, e⟩ | ⟨-, -, e⟩ <;> rw [e] at ht ⊢
  · cases hp.symm.trans ht
  · cases ht
  · rfl

/-- No step in RX reaches RESULT. -/
theorem phase_rxStep_ne_result (hp : s.phase = .rx) (h : rxStep s = .next t) : t.phase ≠ .result := by
  rcases rxStep_next h with ⟨-, rfl⟩ | ⟨-, -, rfl⟩ | ⟨-, b, rest, -, hparse⟩
  · simp
  · simp [hp]
  · have hphase : t.phase = s.phase := (parseByte_keeps hparse).phase
    simp [hphase, hp]

/-- Only the interpretation of a decoded frame finishes a command with a payload (R164). -/
theorem decoded_of_runCommand {i : Instr} (h : runCommand p (interpretOf i) s = .next t) (hs : s.phase ≠ .result)
    (ht : t.phase = .result) (hpayload : t.res.payload ≠ .none) : s.phase = .interp ∧ s.ps = .done := by
  rcases runCommand_next h with
    ⟨-, rfl⟩ | ⟨-, rfl⟩ | ⟨htx, rfl⟩ | ⟨hrx, h⟩ | ⟨-, -, rfl⟩ | ⟨hinterp, hdone, -⟩ | ⟨-, rfl⟩
  · exact absurd ht hs
  · exact absurd (payload_checkStep p s ht) hpayload
  · exact absurd (payload_txStep htx ht) hpayload
  · exact absurd ht (phase_rxStep_ne_result hrx h)
  · exact absurd rfl hpayload
  · exact ⟨hinterp, hdone⟩
  · exact absurd ht hs

theorem decoded_of_exec {i : Instr} (h : exec i s = .next t) (hs : s.phase ≠ .result)
    (ht : t.phase = .result) (hpayload : t.res.payload ≠ .none) : s.phase = .interp ∧ s.ps = .done := by
  rcases exec_next h with ⟨p, -, h⟩ | ⟨op, h⟩ | ⟨id, cmd, ps, h⟩
  · exact decoded_of_runCommand h hs ht hpayload
  · rcases runIllegal_next h with ⟨-, rfl⟩ | ⟨-, rfl⟩
    · exact absurd ht hs
    · exact absurd rfl hpayload
  · rcases runRequest_next h with ⟨-, rfl⟩ | ⟨-, -, rfl⟩ | ⟨-, -, rfl⟩
    · exact absurd ht hs
    · cases ht
    · exact absurd rfl hpayload

/-- Of the events only the sequencer's step reaches RESULT. -/
theorem Performs.decoded {e : Event} (h : Performs s e t) (hs : s.phase ≠ .result) (ht : t.phase = .result)
    (hpayload : t.res.payload ≠ .none) : s.phase = .interp ∧ s.ps = .done := by
  cases h with
  | seq i t running notIdle notResult fetched runs => exact decoded_of_exec runs hs ht hpayload
  | reset => cases ht
  | accept => cases ht
  | take => cases ht
  | _ => exact absurd ht hs

end Payloads

/-- Settles O52: the result interprets a decoded frame, whose length and checksum the invariant has at DONE. -/
theorem noInvalidPacketIsDelivered : Obligations.NoInvalidPacketIsDelivered := by
  intro s t hs h hsphase htphase hpayload
  have hinv := invariant_iff.1 hs
  obtain ⟨-, rfl | ⟨e, rest, -, hp⟩⟩ := step_performs h
  · exact absurd htphase hsphase
  obtain ⟨hinterp, hdone⟩ : s.phase = .interp ∧ s.ps = .done := hp.decoded hsphase htphase hpayload
  obtain ⟨hlen, hchk, -⟩ := (parserHolds_done hdone).1 hinv.parser
  exact ⟨hinterp, hdone, hlen, of_decide_eq_true (checksumHolds_iff.2 hchk)⟩

/-! ## A frame but for its checksum -/

/-- The bytes of a frame before its checksum (R70). -/
def frameBody (id cmd : Byte) (ps : List Byte) : List Byte :=
  0xFF :: 0xFF :: id :: lengthByte ps.length :: cmd :: ps

theorem encodeFrame_eq_append (id cmd : Byte) (ps : List Byte) :
    encodeFrame id cmd ps = frameBody id cmd ps ++ [chk8 id (lengthByte ps.length) cmd ps] := rfl

/-- One field changed, the length byte excepted, changes the checksum (R101). -/
theorem chk8_ne_of_set {id id' len cmd cmd' b : Byte} {ps ps' : List Byte} {k : Nat}
    (hset : id' :: len :: cmd' :: ps' = (id :: len :: cmd :: ps).set k b)
    (hk : k < (id :: len :: cmd :: ps).length) (hb : (id :: len :: cmd :: ps)[k]? ≠ some b) :
    chk8 id len cmd ps ≠ chk8 id' len cmd' ps' := by
  have hsum : sum8 (id' :: len :: cmd' :: ps') ≠ sum8 (id :: len :: cmd :: ps) := hset ▸ sum8_set_ne hk hb
  exact fun h => hsum (sub_right_injective h).symm

/-- A frame with one byte changed, after its header and not the length, is the body of some frame of the same
length with a byte behind it that is not that frame's checksum. -/
theorem set_encodeFrame {id cmd b : Byte} {ps : List Byte} {o : Nat} (ho : o = 2 ∨ 4 ≤ o)
    (hlast : o < ps.length + 6) (hb : (encodeFrame id cmd ps)[o]? ≠ some b) :
    ∃ id' cmd' ps' c, ps'.length = ps.length ∧ (encodeFrame id cmd ps).set o b = frameBody id' cmd' ps' ++ [c] ∧
      c ≠ chk8 id' (lengthByte ps'.length) cmd' ps' := by
  obtain rfl | rfl | ⟨k, rfl⟩ : o = 2 ∨ o = 4 ∨ ∃ k, o = k + 5 := by
    rcases ho with h | h
    · exact .inl h
    · rcases Nat.lt_or_ge o 5 with h' | h'
      · exact .inr (.inl (by omega))
      · exact .inr (.inr ⟨o - 5, by omega⟩)
  · exact ⟨b, cmd, ps, _, rfl, rfl, chk8_ne_of_set (k := 0) rfl (Nat.succ_pos _) hb⟩
  · exact ⟨id, b, ps, _, rfl, rfl, chk8_ne_of_set (k := 2) rfl (by simp) hb⟩
  · rw [encodeFrame_eq_cons] at hb ⊢
    simp only [List.getElem?_cons_succ] at hb
    rcases Nat.lt_or_ge k ps.length with hk | hk
    · rw [List.getElem?_append_left hk] at hb
      refine ⟨id, cmd, ps.set k b, chk8 id (lengthByte ps.length) cmd ps, List.length_set, ?_, ?_⟩
      · simp only [List.set_cons_succ, List.set_append_left _ _ hk, frameBody, List.length_set, List.cons_append]
      · rw [List.length_set]
        exact chk8_ne_of_set (k := k + 3) rfl (by simpa using hk) hb
    · obtain rfl : k = ps.length := by omega
      refine ⟨id, cmd, ps, b, rfl, ?_, ?_⟩
      · simp [frameBody]
      · rintro rfl
        simp at hb

/-! ## A decode with its bytes waiting -/

/-- A decode with the bytes `q` waiting in `rxq`, and `k` sequencer steps to come. -/
structure Decoding (k : Nat) (q : List Byte) (t : State) : Prop where
  inv : Invariant t
  phase : t.phase = .rx
  notHeld : t.env.resetHeld = false
  waiting : t.rxq = q
  schedule : t.env.schedule = List.replicate k .seq

/-- The parser has read the body of a frame of these fields. -/
structure AtChecksum (id cmd : Byte) (ps : List Byte) (t : State) : Prop where
  state : t.ps = .rchk
  id : t.pId = id
  len : t.pLen = lengthByte ps.length
  cmd : t.pCmd = cmd
  params : receivedParams t = ps

section Decodes

variable {k : Nat} {q bs rest : List Byte} {id cmd b c : Byte} {ps : List Byte} {t u : State}

/-- The state the parser's next step sees: the event taken, the head of `rxq` popped. -/
abbrev popping (k : Nat) (q : List Byte) (t : State) : State :=
  popped (scheduleTaken t (List.replicate k .seq)) q

/-- With bytes waiting the timer is not armed (R37). -/
theorem Decoding.tArmed_eq_false (h : Decoding k q t) (hq : q ≠ []) : t.tArmed = false := by
  rw [h.inv.armed, timerArmed, h.waiting, List.isEmpty_eq_false_iff.2 hq, Bool.and_false]

/-- One byte popped and parsed. -/
theorem Decoding.parses (h : Decoding (k + 1) (b :: q) t) (hparse : parseByte b (popping k q t) = .ok u) :
    step t = .next u ∧ Decoding k q u := by
  have hread : isReadState t.ps = true := isReadState_of_parseByte (s := popping k q t) hparse
  have hstep : step t = .next u := (step_rx h.inv h.notHeld h.schedule h.phase).trans
    (rxStep_parses (s := scheduleTaken t (List.replicate k .seq)) hread h.waiting hparse)
  have keeps := parseByte_keeps hparse
  exact ⟨hstep, {
    inv := h.inv.step hstep
    phase := keeps.phase.trans h.phase
    notHeld := (congrArg Env.resetHeld keeps.env).trans h.notHeld
    waiting := keeps.rxq
    schedule := congrArg Env.schedule keeps.env }⟩

/-- The parser reads on through the bytes it awaits of a frame. -/
theorem Decoding.reads (hlen : ps.length ≤ 253) {xs : List Byte} (h : Decoding (xs.length + k) (xs ++ q) t)
    (hawaits : Awaits id cmd ps t (xs ++ bs)) :
    Reaches xs.length t fun u => Decoding k q u ∧ Awaits id cmd ps u bs := by
  induction xs generalizing t with
  | nil => exact reaches_zero ⟨by simpa using h, hawaits⟩
  | cons x xs ih =>
    rw [List.length_cons, Nat.add_right_comm] at h
    obtain ⟨u, hparse, hnext⟩ := parseByte_awaits (t := popping (xs.length + k) (xs ++ q) t) hlen h.inv.parser
      h.inv.depth_ge hawaits
    obtain ⟨hstep, hu⟩ := h.parses hparse
    exact reaches_succ hstep (ih hu hnext)

/-- Between the bytes of a frame that waits whole the timer is never armed. -/
theorem Decoding.unarmed_amid (hlen : ps.length ≤ 253) {xs ys : List Byte}
    (hsplit : encodeFrame id cmd ps = xs ++ ys) (hleft : ys ≠ [])
    (h : Decoding (xs.length + k) (encodeFrame id cmd ps ++ rest) t) (hps : t.ps = .ah1) :
    Reaches xs.length t fun u => u.tArmed = false := by
  have hawaits : Awaits id cmd ps t (xs ++ ys) := hsplit ▸ awaits_of_ah1 hps
  rw [hsplit, List.append_assoc] at h
  exact (h.reads hlen hawaits).imp fun u ⟨hu, _⟩ => hu.tArmed_eq_false (by simp [hleft])

/-- With one byte of a frame left the parser is at the checksum, with the frame's fields. -/
theorem atChecksum_of_awaits (hlen : ps.length ≤ 253) (hholds : parserHolds t = true)
    (h : Awaits id cmd ps t [c]) : AtChecksum id cmd ps t := by
  unfold Awaits at h
  split at h
  case h_6 hps =>
    obtain ⟨-, hlength, -, qs, hparams, hqs⟩ := h
    obtain ⟨hmore, -⟩ := (parserHolds_rpar hps).1 hholds
    have hcount : t.pLen.toNat = 2 + ps.length := hlength ▸ toNat_lengthByte hlen
    have hnone : qs.length = 0 := by simpa using (congrArg List.length hqs).symm
    have hreceived : (receivedParams t).length ≤ t.pN := List.length_take_le _ _
    have hall : (receivedParams t).length + qs.length = ps.length := by rw [← List.length_append, hparams]
    omega
  case h_7 hps =>
    obtain ⟨hid, hlength, hcmd, hparams, -⟩ := h
    exact ⟨hps, hid, hlength, hcmd, hparams⟩
  all_goals simp [encodeFrame_eq_cons] at h

/-- A decode start with the body of a frame waiting comes to the checksum, whatever byte follows. -/
theorem Decoding.reads_body (hlen : ps.length ≤ 253) (h : Decoding (ps.length + 6) (frameBody id cmd ps ++ q) t)
    (hps : t.ps = .ah1) : Reaches (ps.length + 5) t fun u => Decoding 1 q u ∧ AtChecksum id cmd ps u := by
  have hawaits : Awaits id cmd ps t (frameBody id cmd ps ++ [_]) := awaits_of_ah1 hps
  exact (Decoding.reads (k := 1) (xs := frameBody id cmd ps) hlen h hawaits).imp
    fun u ⟨hu, hlast⟩ => ⟨hu, atChecksum_of_awaits hlen hu.inv.parser hlast⟩

/-- The checksum test at the end of a frame accepts its checksum alone. -/
theorem AtChecksum.sum_iff (h : AtChecksum id cmd ps t) (hholds : parserHolds t = true) :
    t.pSum + c = 0xFF ↔ c = chk8 id (lengthByte ps.length) cmd ps := by
  obtain ⟨-, hsum, -⟩ := (parserHolds_rchk h.state).1 hholds
  rw [h.id, h.len, h.cmd, h.params] at hsum
  rw [hsum]
  exact decide_eq_true_iff.symm.trans checksumHolds_iff

/-- What a decode of a frame of these fields ends with. -/
structure Decoded (id cmd : Byte) (ps : List Byte) (t : State) : Prop where
  state : t.ps = .done
  id : t.pId = id
  cmd : t.pCmd = cmd
  len : t.pLen.toNat = 2 + ps.length
  params : receivedParams t = ps

theorem Decoding.accepts (hlen : ps.length ≤ 253) (h : Decoding 1 (c :: q) t) (hat : AtChecksum id cmd ps t)
    (hc : c = chk8 id (lengthByte ps.length) cmd ps) :
    Reaches 1 t fun u => Decoding 0 q u ∧ Decoded id cmd ps u := by
  have hcount : t.pLen.toNat = 2 + ps.length := hat.len ▸ toNat_lengthByte hlen
  obtain ⟨hstep, hu⟩ := h.parses (parseByte_rchk_ok (s := popping 0 q t) hat.state
    ((hat.sum_iff h.inv.parser).2 hc) (hcount ▸ Nat.le_add_right 2 _))
  exact reaches_one hstep ⟨hu, rfl, hat.id, hat.cmd, hcount, hat.params⟩

theorem Decoding.rejects_checksum (h : Decoding 1 (c :: q) t) (hat : AtChecksum id cmd ps t)
    (hc : c ≠ chk8 id (lengthByte ps.length) cmd ps) :
    Reaches 1 t fun u => u.ps = .fail ∧ u.fKind = .checksum ∧ u.rxq = q := by
  obtain ⟨hstep, hu⟩ := h.parses (parseByte_rchk_bad (s := popping 0 q t) hat.state
    fun hsum => hc ((hat.sum_iff h.inv.parser).1 hsum))
  exact reaches_one hstep ⟨rfl, rfl, hu.waiting⟩

theorem Decoding.rejects_header (h : Decoding (k + 1) (b :: q) t) (hps : t.ps = .ah1 ∨ t.ps = .ah2)
    (hb : b ≠ 0xFF) :
    Reaches 1 t fun u => u.ps = .fail ∧ u.fKind = .framing ∧ u.fInfo.byte = b ∧ u.fInfo.state = psCode t.ps := by
  obtain ⟨hstep, -⟩ := h.parses (parseByte_header_bad (s := popping k q t) hps hb)
  exact reaches_one hstep ⟨rfl, rfl, rfl, rfl⟩

end Decodes

/-- Settles O53: the parser reads the frame's body and accepts the checksum behind it; at every step before the last
a byte of the frame is still waiting. -/
theorem decodeRecoversEveryEncodedFrame : Obligations.DecodeRecoversEveryEncodedFrame := by
  intro s id cmd ps rest hs hphase hps hheld hlen hrxq hschedule
  have start : Decoding (ps.length + 6) (encodeFrame id cmd ps ++ rest) s :=
    ⟨invariant_iff.1 hs, hphase, hheld, hrxq, hschedule⟩
  constructor
  · intro j hj
    obtain ⟨xs, ys, hsplit, rfl⟩ : ∃ xs ys, encodeFrame id cmd ps = xs ++ ys ∧ xs.length = j :=
      ⟨_, _, (List.take_append_drop j _).symm,
        List.length_take_of_le (encodeFrame_length id cmd ps ▸ Nat.le_of_lt hj)⟩
    have hlength : ps.length + 6 = xs.length + ys.length := by
      rw [← encodeFrame_length id cmd ps, hsplit, List.length_append]
    refine Decoding.unarmed_amid hlen hsplit ?_ (hlength ▸ start) hps
    rintro rfl
    exact Nat.ne_of_lt hj hlength.symm
  · rw [encodeFrame_eq_append, List.append_assoc] at start
    refine ((start.reads_body hlen hps).bind fun u ⟨hu, hat⟩ => hu.accepts hlen hat rfl).imp ?_
    rintro t ⟨ht, hdone⟩
    exact ⟨hdone.state, hdone.id, hdone.cmd, hdone.len, pN_of_receivedParams ht.inv hdone.params, hdone.params,
      ht.waiting⟩

/-- Settles O54: a changed header byte is rejected where it stands; any other change makes the frame the body of one
frame with another one's checksum. -/
theorem oneChangedByteIsDetected : Obligations.OneChangedByteIsDetected := by
  intro s id cmd b ps o hs hphase hps hheld hlen ho hb hrxq hschedule
  have start : Decoding (ps.length + 6) ((encodeFrame id cmd ps).set o b) s :=
    ⟨invariant_iff.1 hs, hphase, hheld, hrxq, hschedule⟩
  constructor
  · intro hheader
    obtain rfl | rfl : o = 0 ∨ o = 1 := by omega
    · have hbad : b ≠ 0xFF := fun h => hb (congrArg some h.symm)
      exact (start.rejects_header (.inl hps) hbad).imp fun t ⟨hfail, hkind, hbyte, hstate⟩ =>
        ⟨hfail, hkind, hbyte, by rw [hstate, hps]; rfl⟩
    · have hbad : b ≠ 0xFF := fun h => hb (congrArg some h.symm)
      obtain ⟨hstep, hah2⟩ := start.parses (parseByte_header_ok (s := popping _ _ s) hps (.inl ⟨rfl, rfl⟩) rfl)
      exact reaches_succ hstep (hah2.rejects_header (.inr rfl) hbad)
  · intro hbody
    obtain ⟨id', cmd', ps', c, hlen', hset, hc⟩ := set_encodeFrame hbody ho hb
    rw [hset] at start
    rw [← hlen'] at start hlen ⊢
    exact (start.reads_body hlen hps).bind fun u ⟨hu, hat⟩ => hu.rejects_checksum hat hc

end Sys2Proof.Machine
end

section
/-! FLUSH_TX, and a command's wait for bytes (41_transport.md R143, R150; 42_session.md R160). -/

namespace Sys2Proof.Machine

open Sys2Proof.Claims

/-- RX runs the parser, whatever the command (R160). -/
theorem exec_rx {i : Instr} {s : State} {p : Plan} (hplan : planOf s.cfg i = some p) (hp : s.phase = .rx) :
    exec i s = rxStep s := by
  rw [exec_eq_runCommand hplan, runCommand, hp]

/-- Settles O29: the twelve commands have a plan, and RX is the same step for each. -/
theorem decodeWaitsForBytesAndEndsInInterp : Obligations.DecodeWaitsForBytesAndEndsInInterp := by
  intro i s hi hp
  obtain ⟨reply, hreply⟩ := Option.ne_none_iff_exists'.1 hi
  obtain ⟨p, hplan, -⟩ := plan_of_responseExpected hreply
  rw [exec_rx hplan hp]
  exact ⟨rxStep_waits, rxStep_ended⟩

/-- Settles O21: FLUSH_TX has nothing to check or send, and it expects no response. -/
theorem flushTxRunsByItsRule : Obligations.FlushTxRunsByItsRule := by
  intro s
  exact ⟨fun hp => exec_check (p := planFlushTx) rfl hp, fun hp => drains_of_plan rfl hp rfl⟩

end Sys2Proof.Machine
end

section
/-! The rest of the session rules (42_session.md R164, R174; 60_exceptions.md R205): SYNC_READ's interpretation, the
failed decode, and the reserved ops. -/

namespace Sys2Proof.Machine

open Sys2Proof.Claims

/-! ## Reads within the buffer, by value -/

/-- Group k's position, the two bytes from `4 + k·w + off` on (R174). -/
def positionAt (s : State) (w off k : Nat) : Half :=
  le16 (s.pBuf.getD (4 + k * w + off) 0) (s.pBuf.getD (4 + k * w + off + 1) 0)

/-- R174's positions are those of groups 0 to n - 1. -/
theorem positions_eq_map_positionAt (s : State) (w off n : Nat) :
    positions s w off n = (List.range' 0 n).map (positionAt s w off) := by
  rw [← List.range_eq_range']
  rfl

section Values

variable {s : State} (room : s.pN ≤ s.pBuf.length)
include room

theorem paramAt_eq_getD {k : Nat} (hk : k < s.pN) : paramAt s k = some (s.pBuf.getD k 0) := by
  have hbuf : k < s.pBuf.length := Nat.lt_of_lt_of_le hk room
  rw [List.getD_eq_getElem _ _ hbuf]
  exact paramAt_of_getElem? hk (List.getElem?_eq_getElem hbuf)

theorem paramHalf_eq_getD {k : Nat} (hk : k + 1 < s.pN) :
    paramHalf s k = some (le16 (s.pBuf.getD k 0) (s.pBuf.getD (k + 1) 0)) := by
  rw [paramHalf, paramAt_eq_getD room (Nat.lt_of_succ_lt hk), paramAt_eq_getD room hk]

theorem paramStamp_eq_getD (hn : 4 ≤ s.pN) :
    paramStamp s =
      some (le32 (s.pBuf.getD 0 0) (s.pBuf.getD 1 0) (s.pBuf.getD 2 0) (s.pBuf.getD 3 0)) := by
  rw [paramStamp, paramAt_eq_getD room (k := 0) (by omega), paramAt_eq_getD room (k := 1) (by omega),
    paramAt_eq_getD room (k := 2) (by omega), paramAt_eq_getD room (k := 3) (by omega)]

/-- Group k's position lies within the parameters once its group does. -/
theorem paramHalf_eq_positionAt {w off k : Nat} (hw : off + 2 ≤ w) (hgroup : 4 + (k + 1) * w ≤ s.pN) :
    paramHalf s (4 + k * w + off) = some (positionAt s w off k) := by
  rw [Nat.succ_mul] at hgroup
  exact paramHalf_eq_getD room (by omega)

/-- `n` whole groups from group `k` on give their `n` positions. -/
theorem groupPositions_eq_map {w off : Nat} (hw : off + 2 ≤ w) {n k : Nat} (hn : 4 + (k + n) * w ≤ s.pN) :
    groupPositions s w off n k = some ((List.range' k n).map (positionAt s w off)) := by
  induction n generalizing k with
  | zero => rfl
  | succ n ih =>
    have hrest : 4 + (k + 1 + n) * w ≤ s.pN := by rwa [Nat.add_right_comm, Nat.add_assoc]
    have hfirst : 4 + (k + 1) * w ≤ s.pN :=
      Nat.le_trans (Nat.add_le_add_left (Nat.mul_le_mul_right w (Nat.le_add_right (k + 1) n)) 4) hrest
    rw [groupPositions, paramHalf_eq_positionAt room hw hfirst, ih hrest]
    rfl

/-- The payload of a response that holds the timestamp and `n` whole groups (R174). -/
theorem syncPayload_eq {w off n : Nat} (hw : off + 2 ≤ w) (hn : 4 + n * w ≤ s.pN) :
    syncPayload w off n s =
      some (.sync
        (le32 (s.pBuf.getD 0 0) (s.pBuf.getD 1 0) (s.pBuf.getD 2 0) (s.pBuf.getD 3 0))
        (positions s w off n)) := by
  have hgroups : 4 + (0 + n) * w ≤ s.pN := by rwa [Nat.zero_add]
  rw [syncPayload, paramStamp_eq_getD room (Nat.le_of_add_right_le hn), groupPositions_eq_map room hw hgroups,
    positions_eq_map_positionAt]

end Values

/-! ## SYNC_READ's interpretation -/

section SyncReads

variable {s : State} {n : Nat} {width : Byte}

/-- DEVICE comes before every length test (R206). -/
theorem interpretSyncRead_device (hst : s.pCmd ≠ s.cfg.noError) :
    interpretSyncRead n width s = .next (finishedState s .device .none { code := s.pCmd }) :=
  if_pos hst

theorem interpretSyncRead_malformed (hst : s.pCmd = s.cfg.noError)
    (hlen : s.pN < 4 ∨ (s.pN - 4) % width.toNat ≠ 0 ∨ (s.pN - 4) / width.toNat ≠ n) :
    interpretSyncRead n width s =
      .next (finishedState s .malformedLength .none { count := BitVec.ofNat 8 s.pN }) :=
  (if_neg (not_not_intro hst)).trans (if_pos hlen)

/-- With the three length tests passed, the payload's reads all lie within the parameters. -/
theorem interpretSyncRead_ok (room : s.pN ≤ s.pBuf.length)
    (hw : s.cfg.syncReadPosOffset.toNat + 2 ≤ width.toNat) (hst : s.pCmd = s.cfg.noError) (hstamp : 4 ≤ s.pN)
    (hmod : (s.pN - 4) % width.toNat = 0) (hdiv : (s.pN - 4) / width.toNat = n) :
    interpretSyncRead n width s =
      .next (finishedState s .ok
        (.sync
          (le32 (s.pBuf.getD 0 0) (s.pBuf.getD 1 0) (s.pBuf.getD 2 0) (s.pBuf.getD 3 0))
          (positions s width.toNat s.cfg.syncReadPosOffset.toNat n)) {}) := by
  have hpass : ¬ (s.pN < 4 ∨ (s.pN - 4) % width.toNat ≠ 0 ∨ (s.pN - 4) / width.toNat ≠ n) := by
    simp [hstamp, hmod, hdiv]
  have hwhole : 4 + n * width.toNat ≤ s.pN := by
    have hle := Nat.div_mul_le_self (s.pN - 4) width.toNat
    rw [hdiv] at hle
    omega
  rw [interpretSyncRead, if_neg (not_not_intro hst), if_neg hpass, syncPayload_eq room hw hwhole]
  rfl

end SyncReads

/-- Settles O20: the status decides first, the length tests next, and what passes them holds every byte read. -/
theorem syncReadInterpretsByItsRule : Obligations.SyncReadInterpretsByItsRule := by
  intro ids width s hp hps hw _ room
  have hexec : exec (.syncRead ids width) s = interpretSyncRead ids.length width s :=
    exec_interp_done rfl hp hps
  rw [hexec]
  exact ⟨interpretSyncRead_device, interpretSyncRead_malformed, interpretSyncRead_ok room hw⟩

/-! ## The failed decode -/

/-- Settles O31: the twelve commands have a plan, and INTERP tests the decode before it interprets. -/
theorem failedDecodePropagates : Obligations.FailedDecodePropagates := by
  intro i s hi hp hps
  obtain ⟨reply, hreply⟩ := Option.ne_none_iff_exists'.1 hi
  obtain ⟨p, hplan, -⟩ := plan_of_responseExpected hreply
  exact exec_interp_fail hplan hp hps

/-! ## The reserved ops -/

/-- In CHECK a reserved op finishes with ILLEGAL_COMMAND and itself (R205). -/
theorem runIllegal_check {s : State} (hp : s.phase = .check) (op : Byte) :
    runIllegal op s = .next (finishedState s .illegalCommand .none { code := op }) := by
  rw [runIllegal, hp]
  rfl

/-- Settles O24: each reserved op is `runIllegal` of its own number. -/
theorem reservedOpsFinishIllegal : Obligations.ReservedOpsFinishIllegal :=
  fun _ hp => ⟨runIllegal_check hp 0x00, runIllegal_check hp 0x0D, runIllegal_check hp 0x0E,
    runIllegal_check hp 0x0F⟩

end Sys2Proof.Machine
end

section
/-! Reset as an event: its assertion, its release, and what it blocks while it is held (60_exceptions.md R207;
70_reset_and_hazards.md R230, R231). -/

namespace Sys2Proof.Machine

/-- The events that act while reset is held: reset's own two, and the host's offering (log 11). -/
def Event.ActsWhileHeld (e : Event) : Prop :=
  e = .assertReset ∨ e = .releaseReset ∨ ∃ c, e = .offer c

/-- While reset is held, every event that waits for its release leaves the state as it is (R231). -/
theorem perform_held {e : Event} {s : State} (hheld : s.env.resetHeld = true) (he : ¬ e.ActsWhileHeld) :
    perform e s = .next s := by
  cases e with
  | offer c => exact absurd (.inr (.inr ⟨c, rfl⟩)) he
  | assertReset => exact absurd (.inl rfl) he
  | releaseReset => exact absurd (.inr (.inl rfl)) he
  | accept | seq => exact if_pos hheld
  | take | send | arrive b | timeout => exact congrArg Host.Outcome.next (if_pos hheld)

section Steps

variable {s : State} {rest : List Event}

/-- The scheduled assertion answers, in every phase and whether or not reset is already held (R230). -/
theorem step_assertReset (hv : s.cfg.valid = true) (hs : s.env.schedule = .assertReset :: rest) :
    step s = .next (assertResetEvent (scheduleTaken s rest)) :=
  step_of_event hv hs

/-- The scheduled release answers in every phase (R231). -/
theorem step_releaseReset (hv : s.cfg.valid = true) (hs : s.env.schedule = .releaseReset :: rest) :
    step s = .next (releaseResetEvent (scheduleTaken s rest)) :=
  step_of_event hv hs

/-- With reset held, a scheduled event that waits for its release only leaves the schedule. -/
theorem step_held {e : Event} (hv : s.cfg.valid = true) (hs : s.env.schedule = e :: rest)
    (hheld : s.env.resetHeld = true) (he : ¬ e.ActsWhileHeld) : step s = .next (scheduleTaken s rest) :=
  (step_of_event hv hs).trans (perform_held (s := scheduleTaken s rest) hheld he)

end Steps

/-- Settles O40: the assertion and the release never test the level, and each other event but the offering tests it
first. -/
theorem heldResetBlocksEveryOtherEvent : Obligations.HeldResetBlocksEveryOtherEvent := by
  intro s e rest hv hs
  refine ⟨?asserted, ?released, ?blocked⟩
  case asserted =>
    rintro rfl
    exact ⟨_, step_assertReset hv hs, rfl, rfl, rfl, rfl⟩
  case released =>
    rintro rfl
    exact step_releaseReset hv hs
  case blocked =>
    intro hheld hassert hrelease hoffer
    have hwaits : ¬ e.ActsWhileHeld := by
      rintro (h | h | ⟨c, h⟩)
      exacts [hassert h, hrelease h, hoffer c h]
    exact step_held hv hs hheld hwaits

end Sys2Proof.Machine
end

section
/-! Where the model stops (log 8, log 18): the machine at rest with no event to come, and the six combinations of
command, phase and parser state that end in a fault. -/

namespace Sys2Proof.Machine

/-- Settles O10: a valid configuration passes the only test before the schedule is read. -/
theorem emptyScheduleHoldsTheState : Obligations.EmptyScheduleHoldsTheState := fun _ => step_of_empty

/-! ## The fault `sequence` -/

section Sequence

variable {s : State}

/-- A reserved op has no step past CHECK (R205). -/
theorem runIllegal_past_check (hp : s.phase = .tx ∨ s.phase = .rx ∨ s.phase = .interp) (op : Byte) :
    runIllegal op s = .fault .sequence := by
  unfold runIllegal
  rcases hp with hp | hp | hp <;> rw [hp]

/-- RX has no step for a parser that has not started. -/
theorem rxStep_idle (hps : s.ps = .idle) : rxStep s = .fault .sequence := by
  rw [rxStep, hps]

/-- INTERP has no step for a decode that has not ended, whatever the interpretation. -/
theorem interpStep_not_ended (interpret : State → StepOutcome) (hdone : s.ps ≠ .done) (hfail : s.ps ≠ .fail) :
    interpStep interpret s = .fault .sequence := by
  unfold interpStep
  split
  case h_1 hps => exact absurd hps hfail
  case h_2 hps => exact absurd hps hdone
  case h_3 => rfl

/-- INTERP runs the command's interpretation under the test of the decode (R160, R164). -/
theorem exec_interp {i : Instr} {p : Plan} (hplan : planOf s.cfg i = some p) (hp : s.phase = .interp) :
    exec i s = interpStep (interpretOf i) s := by
  rw [exec_eq_runCommand hplan, runCommand, hp]

end Sequence

/-! ## The fault `paramBuffer` -/

section ParamBuffer

variable {s : State}

/-- A parameter byte has no place in a full buffer (R112). -/
theorem readParam_full (b : Byte) (hfull : s.pBuf.length ≤ s.pN) : readParam b s = .error .paramBuffer :=
  if_neg (Nat.not_lt_of_le hfull)

/-- The parser's error on the waiting byte is the step's fault. -/
theorem rxStep_faults {b : Byte} {rest : List Byte} {f : Fault} (hread : isReadState s.ps = true)
    (hq : s.rxq = b :: rest) (hparse : parseByte b (popped s rest) = .error f) : rxStep s = .fault f := by
  unfold rxStep
  split
  case h_1 hps | h_2 hps | h_3 hps => simp [hps, isReadState] at hread
  case h_4 =>
    unfold popAndParse
    simp only [hq, hparse]
    rfl

/-- In RPAR with the buffer full, a waiting byte is the fault. -/
theorem rxStep_rpar_full (hps : s.ps = .rpar) (hq : s.rxq ≠ []) (hfull : s.pBuf.length ≤ s.pN) :
    rxStep s = .fault .paramBuffer := by
  obtain ⟨b, rest, hcons⟩ := List.exists_cons_of_ne_nil hq
  have hparse : parseByte b (popped s rest) = .error .paramBuffer := by
    rw [parseByte, hps]
    exact readParam_full (s := popped s rest) b hfull
  exact rxStep_faults (by rw [hps]; rfl) hcons hparse

/-- RECV reads no packet of more parameters than the buffer holds (R216(b)). -/
theorem interpretPacket_overfull (hover : s.pBuf.length < s.pN) : interpretPacket s = .fault .paramBuffer := by
  have hnone : decodedParams s = none := if_neg (Nat.not_le_of_lt hover)
  rw [interpretPacket, hnone]
  rfl

end ParamBuffer

/-! ## The six stops -/

/-- Each of the twelve commands hands a plan to the sequencer. -/
theorem exists_plan_of_command {c : Config} {i : Instr} (hi : responseExpected c i ≠ none) :
    ∃ p, planOf c i = some p := by
  obtain ⟨reply, hreply⟩ := Option.ne_none_iff_exists'.1 hi
  obtain ⟨p, hplan, -⟩ := plan_of_responseExpected hreply
  exact ⟨p, hplan⟩

/-- Settles O34: the reserved ops by `runIllegal`; the twelve commands by their plan, which leaves each stop to the
phase's shared step or to the command's interpretation. -/
theorem impossibleStepsFault : Obligations.ImpossibleStepsFault := by
  intro i s
  refine ⟨?reserved, ?parserIdle, ?notEnded, ?noResponse, ?bufferFull, ?bufferOverfull⟩
  case reserved =>
    rintro (rfl | rfl | rfl | rfl) hp
    exacts [runIllegal_past_check hp 0x00, runIllegal_past_check hp 0x0D, runIllegal_past_check hp 0x0E,
      runIllegal_past_check hp 0x0F]
  case parserIdle =>
    intro hi hp hps
    obtain ⟨p, hplan⟩ := exists_plan_of_command hi
    exact (exec_rx hplan hp).trans (rxStep_idle hps)
  case notEnded =>
    intro hi hp hdone hfail
    obtain ⟨p, hplan⟩ := exists_plan_of_command hi
    exact (exec_interp hplan hp).trans (interpStep_not_ended _ hdone hfail)
  case noResponse =>
    rintro (rfl | ⟨id, cmd, data, rfl⟩ | ⟨addr, width, entries, rfl⟩) hp hps
    all_goals exact exec_interp_done rfl hp hps
  case bufferFull =>
    intro hi hp hps hq hfull
    obtain ⟨p, hplan⟩ := exists_plan_of_command hi
    exact (exec_rx hplan hp).trans (rxStep_rpar_full hps hq hfull)
  case bufferOverfull =>
    rintro rfl hp hps hover
    exact (exec_interp_done rfl hp hps).trans (interpretPacket_overfull hover)

end Sys2Proof.Machine
end
